-- ==== Sys2Proof/Word.lean ====
section
/-! DEFINITION. Word.lean: the word types of the pethublocal radio core. Every quantity that the spec treats as bits is
unsigned (spec/43_protocol_decoder.md R178); counts and lengths are natural numbers. -/

namespace Sys2Proof

/-- One byte: the only access width of the register bus (20 R51). -/
abbrev Byte := BitVec 8

/-- A 16-bit field: FrameControl, a PAN id, a short address (30 R73, 10 R28). -/
abbrev Half := BitVec 16

/-- The 12-bit container of a register-bus address (20 R50; 90 C2: "12-bit" names the container, not the space). -/
abbrev BusAddr := BitVec 12

/-- An 8-byte extended address, kept in on-air order, index 0 first (20 R52, 10 R31). -/
abbrev Ident := Vector Byte 8

end Sys2Proof
end

