-- ==== Sys2Proof/Config.lean ====
section
/-! DEFINITION. Config.lean: the parameters of the block (spec/00_scope.md R6), the register map (spec/10_state.md R32) and
the free values. Every OPEN parameter is a field of `Params`; the machine holds one `Params`, sampled at power-on
(20 R64, 70 R220), so that a statement about every state is a statement about every configuration. -/

namespace Sys2Proof

/-- The two register spaces of the bus (20 R50). -/
inductive Space where
  /-- "an 8-bit short space": 6 address bits on the wire (30 R71). -/
  | short
  /-- "a 12-bit long space": 10 address bits on the wire (30 R72). -/
  | long
deriving DecidableEq, Repr

/-- One location of the transceiver: a space and an address in it (10 R33). -/
structure Loc where
  space : Space
  addr : BusAddr
deriving DecidableEq, Repr

/-- The transceiver's registers by role, with the values the block writes and the bits it looks at (10 R32). The spec
fixes no address, so each register is a whole location (20 R61: "the space of each is part of the OPEN register map all
the same"). -/
structure RegMap where
  /-- `A_SOFTRST`, `V_SOFTRST`, `M_SOFTRST`: soft reset. -/
  softrst : Loc
  vSoftrst : Byte
  mSoftrst : Byte
  /-- `A_RXFLUSH`, `V_RXFLUSH`: RX FIFO flush. -/
  rxflush : Loc
  vRxflush : Byte
  /-- `A_SADRL`, `A_SADRH`: short address. -/
  sadrl : Loc
  sadrh : Loc
  /-- `A_PANL`, `A_PANH`: PAN id. -/
  panl : Loc
  panh : Loc
  /-- `A_EADR0`: the first of eight consecutive extended-address registers. -/
  eadr0 : Loc
  /-- `A_RXMCR` with `B_PROMI`, `B_PANCOORD` and `B_COORD` (never written). -/
  rxmcr : Loc
  bPromi : Fin 8
  bPancoord : Fin 8
  bCoord : Fin 8
  /-- `A_TXMCR` with `B_SLOTTED`. -/
  txmcr : Loc
  bSlotted : Fin 8
  /-- `A_ORDER`, `V_ORDER_OFF`: beacon and superframe order. -/
  order : Loc
  vOrderOff : Byte
  /-- `A_INTCON`, `V_INTCON`: interrupt enable. -/
  intcon : Loc
  vIntcon : Byte
  /-- `A_INTSTAT` with `B_RXIF`, `B_TXIF` (30 R79). -/
  intstat : Loc
  bRxif : Fin 8
  bTxif : Fin 8
  /-- `A_TXNCON`, `V_TXTRIG`, `V_TXTRIG_ACK`: TX trigger. -/
  txncon : Loc
  vTxtrig : Byte
  vTxtrigAck : Byte
  /-- `A_TXSTAT` with `B_CCAFAIL` (30 R78). -/
  txstat : Loc
  bCcafail : Fin 8
  /-- `A_RXCTL`, `V_RXDIS`, `V_RXEN`: reception off and on. -/
  rxctl : Loc
  vRxdis : Byte
  vRxen : Byte
  /-- `A_RFCTL`, `V_RFRST_SET`, `V_RFRST_CLR`: RF state-machine reset pulse. -/
  rfctl : Loc
  vRfrstSet : Byte
  vRfrstClr : Byte
  /-- `A_CHANNEL`: channel and PLL. -/
  channel : Loc
  /-- `A_RFSTATE` in `SP_RFSTATE`, with `M_RXREADY`, `V_RXREADY`. -/
  rfstate : Loc
  mRxready : Byte
  vRxready : Byte
  /-- `A_TXFIFO`, `A_RXFIFO`: the bases of the two frame FIFOs. -/
  txfifo : Loc
  rxfifo : Loc
deriving DecidableEq, Repr

/-- The parameters of 00 R6. -/
structure Params where
  /-- `WHITELIST[0..N_DEV-1]`; `N_DEV` is its length. -/
  whitelist : List Ident
  /-- `CFG_EADR`, or `none`. -/
  cfgEadr : Option Ident
  /-- `CFG_PAN` and `CFG_CHANNEL`: what the host applies after `initialize` (70 R223). -/
  cfgPan : Half
  cfgChannel : Byte
  /-- `T_RESET_LOW`, `T_RESET_HIGH` in milliseconds. -/
  tResetLow : Nat
  tResetHigh : Nat
  /-- `MAX_POLL`: the bound of every bounded poll (41 R114). -/
  maxPoll : Nat
  /-- `DEFAULT_CHANNEL`. -/
  defaultChannel : Byte
  /-- The register map. -/
  reg : RegMap
  /-- `CAL_SEQ`: the vendor calibration writes, in order (41 R113). -/
  calSeq : List (Loc × Byte)
  /-- `SHORT_DIR_WR`: the direction bit of a short-space write (30 R71). -/
  shortDirWr : BitVec 1
  /-- `LONG_DIR_WR`: the direction mask of a long-space write (30 R72). -/
  longDirWr : BitVec 5
  /-- `RX_TRAILER_LEN` (30 R77). -/
  rxTrailerLen : Nat
  /-- `ACK_M07` (30 R84). -/
  ackM07 : Bool
  /-- `FORWARD_MALFORMED` (43 R163). -/
  forwardMalformed : Bool
  /-- `UNKNOWN_SEQ` (43 R172). -/
  unknownSeq : Byte
deriving DecidableEq, Repr

namespace Config

/-- `MAX_PAYLOAD`: the largest payload of a Frame (00 R6). -/
def maxPayload : Nat := 116

/-- `MAX_FRAME`: the largest length-prefix value (00 R6). -/
def maxFrame : Nat := 127

/-- FREE VALUE: the byte the transceiver draws for a read that neither a script nor a law of 20 R66 decides (20 R66 (a):
"a byte it chooses"; 93 U9). Applied to the counter `env.draws`. DESIGN CHOICE, safe: notes/assumptions/3.md. -/
opaque freeByte : Nat → Byte

/-- FREE VALUE: whether a pending interrupt run starts before the next main-context step when the agenda says nothing
(42 R140: "a model allows both orders"). Applied to the counter `env.draws`. DESIGN CHOICE, safe:
notes/assumptions/4.md. -/
opaque freePreempt : Nat → Bool

end Config

end Sys2Proof
end

