-- ==== Sys2Proof/Syntax.lean ====
section
/-! DEFINITION. Syntax.lean: the operations of the block, one constructor per row of spec/opcode_table.json (30 R82). The
block has no instruction stream (10 R24): a row is a bus transaction, a host command, an interrupt sequence, a handler or
a decoder action. `initialize` is named `init` here, because Lean keeps that word for itself. -/

namespace Sys2Proof

/-- The 34 rows of the operation map. Operands are those of 30 R71, R72, R81, R87; addresses are held in the
containers of 90 C1 and C2 (8 and 12 bits), so that an address that cannot be encoded can be refused (40 R105). -/
inductive Instr where
  /-- `SRD a`: short-space read (40 R101). -/
  | srd (a : BitVec 8)
  /-- `SWR a, v`: short-space write (40 R102). -/
  | swr (a : BitVec 8) (v : Byte)
  /-- `LRD a`: long-space read (40 R103). -/
  | lrd (a : BusAddr)
  /-- `LWR a, v`: long-space write (40 R104). -/
  | lwr (a : BusAddr) (v : Byte)
  /-- `reset` (41 R111). -/
  | reset
  /-- `initialize` (41 R112). -/
  | init
  /-- `set_channel n` (41 R115). -/
  | setChannel (n : Byte)
  /-- `set_pan id` (41 R116). -/
  | setPan (id : Half)
  /-- `get_pan` (41 R117). -/
  | getPan
  /-- `set_short_address a` (41 R118). -/
  | setShortAddress (a : Half)
  /-- `get_short_address` (41 R119). -/
  | getShortAddress
  /-- `set_promiscuous b` (41 R120). -/
  | setPromiscuous (b : Bool)
  /-- `set_pan_controller b` (41 R121). -/
  | setPanController (b : Bool)
  /-- `rx_disable` (41 R122). -/
  | rxDisable
  /-- `rx_enable` (41 R123). -/
  | rxEnable
  /-- `send fcf, payload` (41 R125). -/
  | send (fcf : Half) (payload : List Byte)
  /-- `send16_ack dest, payload` (41 R127). -/
  | send16Ack (dest : Half) (payload : List Byte)
  /-- `poll` (42 R146). -/
  | poll
  /-- `get_rx_record` (41 R128). -/
  | getRxRecord
  /-- `get_tx_record` (41 R129). -/
  | getTxRecord
  /-- `IRQ`: the top-half handler (42 R141). -/
  | irq
  /-- `RXPATH`: the frame parser (42 R142). -/
  | rxpath
  /-- `TXPATH`: the completion status (42 R144). -/
  | txpath
  /-- `ON_RECEIVE`: the RX handler (42 R148, 43 R161). -/
  | onReceive
  /-- `ON_TX_COMPLETE`: the TX handler (42 R149). -/
  | onTxComplete
  /-- `M07` with `payload[1]` (43 R164). -/
  | m07 (p1 : Byte)
  /-- `M01A`: association request (43 R165). -/
  | m01a
  /-- `M13` with `payload[1]`: online beacon (43 R166). -/
  | m13 (p1 : Byte)
  /-- `M08` with `payload[2]` (43 R167). -/
  | m08 (p2 : Byte)
  /-- `M01D` with `payload[1]` and `payload[2]`: data frame (43 R168). -/
  | m01d (p1 : Byte) (p2 : Byte)
  /-- `M02` with `payload[2]` (43 R169). -/
  | m02 (p2 : Byte)
  /-- `M0A` with `payload[1]` (43 R170). -/
  | m0a (p1 : Byte)
  /-- `MXX`: any other type byte (43 R171). -/
  | mxx (t : Byte)
  /-- `MALFORMED`: the outcome of a message that fails its row's precondition (43 R163, R180). -/
  | malformed
deriving DecidableEq, Repr

end Sys2Proof
end

