-- ==== Sys2Proof/WellFormed.lean ====
section
/-! DEFINITION. WellFormed.lean: which instructions an encoding exists for, and which configurations satisfy the
constraints the spec states on its parameters. Both are Booleans, so that `decide` runs on them. -/

namespace Sys2Proof

/-- The size of a space, as what a transaction can address (20 R50): 64 short, 1024 long locations. -/
def Space.size : Space → Nat
  | .short => 64
  | .long => 1024

/-- The location can be encoded in a transaction (20 R50, 40 R105). -/
def Loc.inRange (l : Loc) : Bool := decide (l.addr.toNat < l.space.size)

/-- The type bytes that have a row of their own in the decoder's table (30 R82). -/
def knownTypes : List Byte := [0x07, 0x01, 0x13, 0x08, 0x02, 0x0A]

/-- An encoding of the instruction exists: a bus address fits its space (20 R50), a payload fits the length byte of its
command (30 R87), and `MXX` carries none of the type bytes that have a row (30 R82). -/
def Instr.wf : Instr → Bool
  | .srd a => decide (a.toNat < 64)
  | .swr a _ => decide (a.toNat < 64)
  | .lrd a => decide (a.toNat < 1024)
  | .lwr a _ => decide (a.toNat < 1024)
  | .reset => true
  | .init => true
  | .setChannel _ => true
  | .setPan _ => true
  | .getPan => true
  | .setShortAddress _ => true
  | .getShortAddress => true
  | .setPromiscuous _ => true
  | .setPanController _ => true
  | .rxDisable => true
  | .rxEnable => true
  | .send _ payload => decide (payload.length < 256)
  | .send16Ack _ payload => decide (payload.length < 256)
  | .poll => true
  | .getRxRecord => true
  | .getTxRecord => true
  | .irq => true
  | .rxpath => true
  | .txpath => true
  | .onReceive => true
  | .onTxComplete => true
  | .m07 _ => true
  | .m01a => true
  | .m13 _ => true
  | .m08 _ => true
  | .m01d _ _ => true
  | .m02 _ => true
  | .m0a _ => true
  | .mxx t => decide (t ∉ knownTypes)
  | .malformed => true

/-- The locations at `n` consecutive addresses from `l` on lie in the space of `l`. -/
def Loc.windowInRange (l : Loc) (n : Nat) : Bool := decide (l.addr.toNat + n ≤ l.space.size)

/-- Every register of the map is a location that exists (00 R6: "addresses within the ranges of R50"). -/
def RegMap.allInRange (r : RegMap) : Bool :=
  [r.softrst, r.rxflush, r.sadrl, r.sadrh, r.panl, r.panh, r.rxmcr, r.txmcr, r.order, r.intcon, r.intstat, r.txncon,
    r.txstat, r.rxctl, r.rfctl, r.channel, r.rfstate].all Loc.inRange && r.eadr0.windowInRange 8

/-- The FIFO windows (20 R62): both in the long space, 129 and 130 locations, not overlapping. -/
def RegMap.fifosOk (r : RegMap) : Bool :=
  decide (r.txfifo.space = .long) && decide (r.rxfifo.space = .long) &&
  decide (r.txfifo.addr.toNat + 128 ≤ 0x3FF) && decide (r.rxfifo.addr.toNat + 129 ≤ 0x3FF) &&
  (decide (r.txfifo.addr.toNat + 128 < r.rxfifo.addr.toNat) || decide (r.rxfifo.addr.toNat + 129 < r.txfifo.addr.toNat))

/-- The constraints stated on the register map (00 R6, 20 R61, 20 R62, 30 R78, 30 R79). -/
def RegMap.wf (r : RegMap) : Bool :=
  r.allInRange && r.fifosOk && decide (r.txncon.space = .short) && decide (r.bRxif ≠ r.bTxif) &&
  decide (1 ≤ r.bCcafail.val) && decide (r.bCcafail.val ≤ 5)

/-- Location `l` lies in the window of `n` locations from `base` on. -/
def Loc.inWindow (l base : Loc) (n : Nat) : Bool :=
  decide (l.space = base.space) && decide (base.addr.toNat ≤ l.addr.toNat) && decide (l.addr.toNat < base.addr.toNat + n)

/-- What may be assumed of one calibration write (41 R113): in range, and none of the registers it must not write. -/
def calEntryOk (r : RegMap) (e : Loc × Byte) : Bool :=
  e.1.inRange && decide (e.1 ∉ [r.softrst, r.txncon, r.intcon, r.panl, r.panh, r.sadrl, r.sadrh]) &&
  !e.1.inWindow r.txfifo 129 && !e.1.inWindow r.rxfifo 130 && !e.1.inWindow r.eadr0 8

/-- The stated constraints on the parameters (00 R6, 41 R113). -/
def Params.wf (p : Params) : Bool :=
  p.reg.wf && p.calSeq.all (calEntryOk p.reg) && decide (1 ≤ p.maxPoll) &&
  decide (11 ≤ p.defaultChannel.toNat) && decide (p.defaultChannel.toNat ≤ 26) &&
  decide (11 ≤ p.cfgChannel.toNat) && decide (p.cfgChannel.toNat ≤ 26) &&
  decide (p.rxTrailerLen ≤ 2) && decide p.whitelist.Nodup

end Sys2Proof
end

