-- ==== Sys2Proof/Machine/Defaults.lean ====
section
/-! DEFINITION. Machine/Defaults.lean: the values `State.reset` samples for the parameters. The register map is the one of
spec/93_implementation_defined.md section 2 (PRESUMED: from general knowledge, the MRF24J40's), the rest is the reference
value of 00 R6 or the value the test vectors use (spec/95_test_vectors.md section 0; DESIGN CHOICE). Nothing but
`State.reset` and `decodeTableWord` reads them: notes/assumptions/5.md. -/

namespace Sys2Proof

/-- A short-space location. -/
def Loc.s (a : BusAddr) : Loc := ⟨.short, a⟩

/-- A long-space location. -/
def Loc.l (a : BusAddr) : Loc := ⟨.long, a⟩

/-- The register map of 93 sections 2.2 and 2.3. -/
def RegMap.default : RegMap where
  softrst := .s 0x2A
  vSoftrst := 0x07
  mSoftrst := 0x07
  rxflush := .s 0x0D
  vRxflush := 0x01
  sadrl := .s 0x03
  sadrh := .s 0x04
  panl := .s 0x01
  panh := .s 0x02
  eadr0 := .s 0x05
  rxmcr := .s 0x00
  bPromi := 0
  bPancoord := 3
  bCoord := 2
  txmcr := .s 0x11
  bSlotted := 5
  order := .s 0x10
  vOrderOff := 0xFF
  intcon := .s 0x32
  vIntcon := 0xF6
  intstat := .s 0x31
  bRxif := 3
  bTxif := 0
  txncon := .s 0x1B
  vTxtrig := 0x01
  vTxtrigAck := 0x05
  txstat := .s 0x24
  bCcafail := 5
  rxctl := .s 0x39
  vRxdis := 0x04
  vRxen := 0x00
  rfctl := .s 0x36
  vRfrstSet := 0x04
  vRfrstClr := 0x00
  channel := .l 0x200
  rfstate := .l 0x20F
  mRxready := 0xE0
  vRxready := 0xA0
  txfifo := .l 0x000
  rxfifo := .l 0x300

/-- The candidate calibration sequence of 93 section 2.4. -/
def calSeqDefault : List (Loc × Byte) :=
  [(.s 0x18, 0x98), (.s 0x2E, 0x95), (.l 0x200, 0x03), (.l 0x201, 0x01), (.l 0x202, 0x80), (.l 0x203, 0x00),
   (.l 0x206, 0x90), (.l 0x207, 0x80), (.l 0x208, 0x10), (.l 0x220, 0x21), (.s 0x3A, 0x80), (.s 0x3F, 0x60),
   (.s 0x3E, 0x40)]

/-- The configuration `TC` of 95 section 0, with the reference delays of 00 R6. -/
def Params.default : Params where
  whitelist := [#v[0xA0, 0xA1, 0xA2, 0xA3, 0xA4, 0xA5, 0xA6, 0xA7], #v[0xB0, 0xB1, 0xB2, 0xB3, 0xB4, 0xB5, 0xB6, 0xB7]]
  cfgEadr := some #v[0xE0, 0xE1, 0xE2, 0xE3, 0xE4, 0xE5, 0xE6, 0xE7]
  cfgPan := 0x1234
  cfgChannel := 15
  tResetLow := 300
  tResetHigh := 300
  maxPoll := 3
  defaultChannel := 11
  reg := .default
  calSeq := calSeqDefault
  shortDirWr := 1
  longDirWr := 0x10
  rxTrailerLen := 0
  ackM07 := false
  forwardMalformed := false
  unknownSeq := 0x00

end Sys2Proof
end

