-- ==== Sys2Proof/Decode.lean ====
section
/-! DEFINITION. Decode.lean: the encodings of spec/30_encoding.md, decoded and encoded. The block reads four formats, each
at a place of its own (`Port`): bus transactions on the wire (SHORT and LONG, R71, R72), host commands (HOSTCMD, R87), the
interrupt status byte (INTSTAT, R79) and the vendor message (MSG, R81, R82). One byte string can mean different things at
different ports, so a decoder takes the port; every decoder is total and rejects by name. -/

namespace Sys2Proof

/-- The low byte of a 16-bit field, first on air and in a command (20 R52). -/
def Half.lo (v : Half) : Byte := v.extractLsb' 0 8

/-- The high byte of a 16-bit field. -/
def Half.hi (v : Half) : Byte := v.extractLsb' 8 8

/-- `h:l` of 00 R7: the 16-bit value with the given high and low bytes. -/
def half (h l : Byte) : Half := h ++ l

/-- Where an operation is selected from its bits. -/
inductive Port where
  /-- The register bus: the bytes of one transaction, first byte first (30 R71, R72). -/
  | bus
  /-- The host's commands (30 R87). -/
  | host
  /-- The byte read at `A_INTSTAT` (30 R79). -/
  | intstat
  /-- The payload of a frame with an extended source, with the stored `online` flag of its source (43 R162). -/
  | msg (online : Bool)
deriving DecidableEq, Repr

/-- Why bytes are no operation. -/
inductive DecodeError where
  /-- No byte at all. -/
  | empty
  /-- A command code without a row (30 R85), `E_BAD_COMMAND`. -/
  | unknownCommand
  /-- Operand bytes are missing (60 R190, `E_BAD_COMMAND`), or the bytes of a transaction are. -/
  | missingOperand
  /-- A Boolean operand byte other than 0 and 1 (30 R87: "1 byte, 0 or 1"); DESIGN CHOICE: notes/assumptions/13.md. -/
  | badOperand
  /-- A direction field that is neither a read's nor a write's (30 R72). -/
  | badDirection
  /-- A status byte with neither cause bit set (42 R141). -/
  | noCause
deriving DecidableEq, Repr

/-! ## Bus transactions -/

/-- The address byte of a SHORT transaction: `(addr[5:0] << 1) | dir` (30 R71, R90 (a)). -/
def shortAddrByte (a : BusAddr) (dir : BitVec 1) : Byte := (0#1 ++ a.extractLsb' 0 6) ++ dir

/-- The first address byte of a LONG transaction: `0x80 | addr[9:3]` (30 R72, R90 (b)). -/
def longAddrByte0 (a : BusAddr) : Byte := 1#1 ++ a.extractLsb' 3 7

/-- The second address byte of a LONG transaction: `(addr[2:0] << 5) | dirmask` (30 R72, R90 (b)). -/
def longAddrByte1 (a : BusAddr) (mask : BitVec 5) : Byte := a.extractLsb' 0 3 ++ mask

/-- The bytes the master shifts out for a read of `l` (30 R71, R72, 40 R101, R103). -/
def wireRead (p : Params) (l : Loc) : List Byte :=
  match l.space with
  | .short => [shortAddrByte l.addr (~~~p.shortDirWr)]
  | .long => [longAddrByte0 l.addr, longAddrByte1 l.addr 0]

/-- The bytes the master shifts out for a write of `v` to `l` (30 R71, R72, 40 R102, R104). -/
def wireWrite (p : Params) (l : Loc) (v : Byte) : List Byte :=
  match l.space with
  | .short => [shortAddrByte l.addr p.shortDirWr, v]
  | .long => [longAddrByte0 l.addr, longAddrByte1 l.addr p.longDirWr, v]

/-- A short-space location from the 8-bit container of its address (90 C1). -/
def shortLoc (a : BitVec 8) : Loc := ⟨.short, a.setWidth 12⟩

/-- A long-space location (90 C2). -/
def longLoc (a : BusAddr) : Loc := ⟨.long, a⟩

/-- The first data byte of a write, the rest being no part of the transaction. -/
def withData (rest : List Byte) (k : Byte → Instr) : Except DecodeError Instr :=
  match rest with
  | [] => .error .missingOperand
  | v :: _ => .ok (k v)

/-- A SHORT transaction from its address byte (30 R71). -/
def decodeShort (p : Params) (b0 : Byte) (rest : List Byte) : Except DecodeError Instr :=
  let a : BitVec 8 := (b0.extractLsb' 1 6).setWidth 8
  if b0.extractLsb' 0 1 = p.shortDirWr then withData rest (.swr a) else .ok (.srd a)

/-- A LONG transaction from its address bytes (30 R72); a direction mask that is neither is rejected. -/
def decodeLong (p : Params) (b0 : Byte) (rest : List Byte) : Except DecodeError Instr :=
  match rest with
  | [] => .error .missingOperand
  | b1 :: rest' =>
    let a : BusAddr := (b0.extractLsb' 0 7 ++ b1.extractLsb' 5 3).setWidth 12
    let m : BitVec 5 := b1.extractLsb' 0 5
    if m = 0 then .ok (.lrd a)
    else if m = p.longDirWr then withData rest' (.lwr a)
    else .error .badDirection

/-- A transaction on the wire: bit 7 of the first byte tells the two kinds apart (20 R50). -/
def decodeBus (p : Params) : List Byte → Except DecodeError Instr
  | [] => .error .empty
  | b0 :: rest => if b0.getLsbD 7 then decodeLong p b0 rest else decodeShort p b0 rest

/-! ## Host commands -/

/-- A one-byte operand. -/
def operand8 (rest : List Byte) (k : Byte → Instr) : Except DecodeError Instr :=
  match rest with
  | b :: _ => .ok (k b)
  | [] => .error .missingOperand

/-- A Boolean operand: one byte, 0 or 1 (30 R87). -/
def operandBool (rest : List Byte) (k : Bool → Instr) : Except DecodeError Instr :=
  match rest with
  | [] => .error .missingOperand
  | b :: _ => if b = 0 then .ok (k false) else if b = 1 then .ok (k true) else .error .badOperand

/-- A 16-bit operand, low byte first (30 R87). -/
def operand16 (rest : List Byte) (k : Half → Instr) : Except DecodeError Instr :=
  match rest with
  | l :: h :: _ => .ok (k (half h l))
  | _ => .error .missingOperand

/-- A 16-bit operand, a length byte and that many payload bytes (30 R87). -/
def operandFrame (rest : List Byte) (k : Half → List Byte → Instr) : Except DecodeError Instr :=
  match rest with
  | l :: h :: n :: body =>
    if n.toNat ≤ body.length then .ok (k (half h l) (body.take n.toNat)) else .error .missingOperand
  | _ => .error .missingOperand

/-- The HOSTCMD row of a command code (30 R87), applied to the operand bytes. Bytes after the last operand are no part of
the command: notes/assumptions/12.md. -/
def decodeHostCode (code : Nat) (rest : List Byte) : Except DecodeError Instr :=
  match code with
  | 0x00 => .ok .reset
  | 0x01 => .ok .init
  | 0x02 => operand8 rest .setChannel
  | 0x03 => operand16 rest .setPan
  | 0x04 => .ok .getPan
  | 0x05 => operand16 rest .setShortAddress
  | 0x06 => .ok .getShortAddress
  | 0x07 => operandBool rest .setPromiscuous
  | 0x08 => operandBool rest .setPanController
  | 0x09 => .ok .rxDisable
  | 0x0A => .ok .rxEnable
  | 0x0B => operandFrame rest .send
  | 0x0C => operandFrame rest .send16Ack
  | 0x0D => .ok .poll
  | 0x0E => .ok .getRxRecord
  | 0x0F => .ok .getTxRecord
  | _ => .error .unknownCommand

/-- A host command: one code byte followed by its operand bytes (30 R87). -/
def decodeHost : List Byte → Except DecodeError Instr
  | [] => .error .empty
  | c :: rest => decodeHostCode c.toNat rest

/-! ## Interrupt status -/

/-- The sequences an interrupt status byte selects, in the order they run: RX first (30 R79, 42 R141). -/
def intstatPaths (p : Params) (s : Byte) : List Instr :=
  (if s.getLsbD p.reg.bRxif.val then [.rxpath] else []) ++ (if s.getLsbD p.reg.bTxif.val then [.txpath] else [])

/-- The first sequence an interrupt status byte selects. -/
def decodeIntstat (p : Params) : List Byte → Except DecodeError Instr
  | [] => .error .empty
  | s :: _ =>
    match intstatPaths p s with
    | i :: _ => .ok i
    | [] => .error .noCause

/-! ## Vendor messages -/

/-- DISPATCH of 43 R162: the decoder action of a payload, by its type byte, its length and the stored `online` flag. It
never fails: what no row takes is `MALFORMED`, and a type byte without a row is `MXX`. -/
def decodeMsg (online : Bool) : List Byte → Instr
  | [] => .malformed
  | t :: rest =>
    match t.toNat with
    | 0x07 => match rest with
      | p1 :: _ => .m07 p1
      | [] => .malformed
    | 0x01 =>
      if online then
        match rest with
        | p1 :: p2 :: _ => .m01d p1 p2
        | _ => .malformed
      else .m01a
    | 0x13 => match rest with
      | p1 :: _ => .m13 p1
      | [] => .malformed
    | 0x08 => match rest with
      | _ :: p2 :: _ => .m08 p2
      | _ => .malformed
    | 0x02 => match rest with
      | _ :: p2 :: _ => .m02 p2
      | _ => .malformed
    | 0x0A => match rest with
      | p1 :: _ => .m0a p1
      | [] => .malformed
    | _ => .mxx t

/-! ## All ports -/

/-- Decode the bytes at a port. -/
def decode (p : Params) (port : Port) (bytes : List Byte) : Except DecodeError Instr :=
  match port with
  | .bus => decodeBus p bytes
  | .host => decodeHost bytes
  | .intstat => decodeIntstat p bytes
  | .msg online => .ok (decodeMsg online bytes)

/-! ## The encoder -/

/-- The length byte of a command (30 R87). -/
def lenByte (payload : List Byte) : Byte := BitVec.ofNat 8 payload.length

/-- The command bytes of `send` and `send16_ack` after the code (30 R87). -/
def frameOperand (h : Half) (payload : List Byte) : List Byte := h.lo :: h.hi :: lenByte payload :: payload

/-- The byte of a Boolean operand. -/
def boolByte (b : Bool) : Byte := if b then 1 else 0

/-- The bytes of an instruction and the port they stand at. `none` for the three rows without an encoding (30 R82: `IRQ` is
not selected by a bit pattern, the two handlers carry format NONE). Payload bytes that a message row does not read are
0; `MALFORMED` is shown by the empty payload. -/
def encode (p : Params) : Instr → Option (Port × List Byte)
  | .srd a => some (.bus, wireRead p (shortLoc a))
  | .swr a v => some (.bus, wireWrite p (shortLoc a) v)
  | .lrd a => some (.bus, wireRead p (longLoc a))
  | .lwr a v => some (.bus, wireWrite p (longLoc a) v)
  | .reset => some (.host, [0x00])
  | .init => some (.host, [0x01])
  | .setChannel n => some (.host, [0x02, n])
  | .setPan v => some (.host, [0x03, v.lo, v.hi])
  | .getPan => some (.host, [0x04])
  | .setShortAddress v => some (.host, [0x05, v.lo, v.hi])
  | .getShortAddress => some (.host, [0x06])
  | .setPromiscuous b => some (.host, [0x07, boolByte b])
  | .setPanController b => some (.host, [0x08, boolByte b])
  | .rxDisable => some (.host, [0x09])
  | .rxEnable => some (.host, [0x0A])
  | .send fcf payload => some (.host, 0x0B :: frameOperand fcf payload)
  | .send16Ack dest payload => some (.host, 0x0C :: frameOperand dest payload)
  | .poll => some (.host, [0x0D])
  | .getRxRecord => some (.host, [0x0E])
  | .getTxRecord => some (.host, [0x0F])
  | .irq => none
  | .rxpath => some (.intstat, [BitVec.twoPow 8 p.reg.bRxif.val])
  | .txpath => some (.intstat, [BitVec.twoPow 8 p.reg.bTxif.val])
  | .onReceive => none
  | .onTxComplete => none
  | .m07 p1 => some (.msg false, [0x07, p1])
  | .m01a => some (.msg false, [0x01])
  | .m13 p1 => some (.msg false, [0x13, p1])
  | .m08 p2 => some (.msg false, [0x08, 0, p2])
  | .m01d p1 p2 => some (.msg true, [0x01, p1, p2])
  | .m02 p2 => some (.msg false, [0x02, 0, p2])
  | .m0a p1 => some (.msg false, [0x0A, p1])
  | .mxx t => some (.msg false, [t])
  | .malformed => some (.msg false, [])

/-! ## The opcode table's words -/

/-- A byte-wide table word as a command: the code and operand bytes of zeros, as many as any command reads. -/
def hostFrame (w : Nat) : List Byte := [BitVec.ofNat 8 w, 0, 0, 0]

/-- A byte-wide table word as a message: the type byte and payload bytes of zeros. -/
def msgPayload (w : Nat) : List Byte := [BitVec.ofNat 8 w, 0, 0]

/-- The instruction the decoder reads from a word of spec/opcode_table.json, numbered as the table numbers its bits: in a
SHORT word byte 0 is bits 15..8, in a LONG word it is bits 23..16 (the table's notes), and the wire carries byte 0 first.
The table gives a byte-wide word to the HOSTCMD, INTSTAT and MSG formats alike, with the same values: a code of 30 R87 is
read as that command, any other byte as a message type of a source that is not online (notes/assumptions/14.md). -/
def decodeTableWord (nbits w : Nat) : Option Instr :=
  match nbits with
  | 16 => (decodeBus Params.default [BitVec.ofNat 8 (w / 256), BitVec.ofNat 8 w]).toOption
  | 24 =>
    (decodeBus Params.default [BitVec.ofNat 8 (w / 65536), BitVec.ofNat 8 (w / 256), BitVec.ofNat 8 w]).toOption
  | 8 =>
    match decodeHost (hostFrame w) with
    | .ok i => some i
    | .error _ => some (decodeMsg false (msgPayload w))
  | _ => none

end Sys2Proof
end

