-- ==== Sys2Proof/Machine/State.lean ====
section
/-! DEFINITION. Machine/State.lean: everything the machine remembers, as plain data: the block's state (spec/10_state.md
R20), the configuration sampled at power-on, the environment's state that a model carries (10 R34, 20 R66), and the
model's own fields (INVENTORY.md, State). Then the ways a step can stop, and the state after power-on (10 R36). -/

namespace Sys2Proof.Machine

/-- The result codes (60 R190). `E_BUS_STUCK` is the terminal outcome `Fault.busStuck`, not a code an operation returns. -/
inductive Code where
  | ok
  | hwSoftresetTimeout
  | hwRxreadyTimeout
  | badChannel
  | badAddrMode
  | badLength
  | noDest
  | notReady
  | badBusAddr
  | badCommand
deriving DecidableEq, Repr

/-- The numbers of the codes (60 R190). -/
def Code.number : Code → Byte
  | .ok => 0x00
  | .hwSoftresetTimeout => 0x01
  | .hwRxreadyTimeout => 0x02
  | .badChannel => 0x03
  | .badAddrMode => 0x04
  | .badLength => 0x05
  | .noDest => 0x06
  | .notReady => 0x07
  | .badBusAddr => 0x08
  | .badCommand => 0x09

/-- `drv_status` (10 R27). -/
inductive DrvStatus where
  | cold
  | ready
  | faulted
deriving DecidableEq, Repr

/-- The two execution contexts (60 R205). -/
inductive Ctx where
  | main
  | irq
deriving DecidableEq, Repr

/-- The RX record (10 R21). `dst`, `src` and `payload` hold exactly the meaningful bytes; bytes beyond them are unreadable
(93 U11; notes/assumptions/11.md). -/
structure RxRec where
  valid : Bool
  frameLen : Nat
  hdrLen : Nat
  fcf : Half
  seq : Byte
  pan : Half
  dstLen : Nat
  dst : List Byte
  srcLen : Nat
  src : List Byte
  payloadLen : Nat
  payload : List Byte
  lqi : Byte
  rssi : Byte
deriving DecidableEq, Repr

/-- The TX completion record (10 R22). -/
structure TxRec where
  valid : Bool
  success : Bool
  retries : BitVec 2
  channelBusy : Bool
deriving DecidableEq, Repr

/-- The RadioConfig record (10 R28). -/
structure RadioConfig where
  pan : Half
  short : Half
  eadr : Ident
  eadrValid : Bool
  channel : Byte
  promiscuous : Bool
  panController : Bool
  coordinator : Bool
deriving DecidableEq, Repr

/-- One record of the DeviceTable (10 R31). -/
structure DeviceRecord where
  identity : Ident
  online : Bool
  sequence : Byte
deriving DecidableEq, Repr

/-- The control state of a context (10 R24): `op` is the operation in progress and `k` counts its elementary steps already
done. -/
inductive Ctl where
  | idle
  | running (op : Instr) (k : Nat)
deriving DecidableEq, Repr

/-- One more elementary step done. -/
def Ctl.tick : Ctl → Ctl
  | .idle => .idle
  | .running op k => .running op (k + 1)

/-- Whether a transaction reads or writes. -/
inductive Dir where
  | read
  | write
deriving DecidableEq, Repr

/-- One transaction of the bus trace, with its observable parts (40 R100): context, kind (space and direction), address,
data byte; and the bytes the master shifted out. -/
structure BusEvent where
  ctx : Ctx
  dir : Dir
  loc : Loc
  data : Byte
  wire : List Byte
deriving DecidableEq, Repr

/-- What happens on the output `rst_n`, and the settle delays `reset` asks for (41 R111). -/
inductive PinEvent where
  /-- `rst_n` is driven to the level. -/
  | rst (level : Bool)
  /-- At least this many milliseconds pass. -/
  | waitAtLeast (ms : Nat)
deriving DecidableEq, Repr

/-- The tag of a forward (43 R176). -/
inductive Tag where
  | data
  | unknown
deriving DecidableEq, Repr

/-- The output events towards the host (60 R205). -/
inductive OutEvent where
  /-- `Forward(identity, bytes, tag)` (43 R176). -/
  | forward (identity : List Byte) (bytes : List Byte) (tag : Tag)
  /-- `TxReport(success, retries, channel_busy)` (42 R149). -/
  | txReport (success : Bool) (retries : BitVec 2) (channelBusy : Bool)
  /-- `ReplyRefused(code)` (43 R173). -/
  | replyRefused (code : Code)
deriving DecidableEq, Repr

/-- The value an operation returns with its code (60 R190). -/
inductive Value where
  | none
  /-- The byte a read transaction returns. -/
  | byte (b : Byte)
  /-- The 16 bits `get_pan` and `get_short_address` return. -/
  | half (v : Half)
  /-- What `get_rx_record` returns (41 R128). -/
  | rxRecord (r : Option RxRec)
  /-- What `get_tx_record` returns: `(success, retries, channel_busy)` (41 R129). -/
  | txRecord (r : Option (Bool × BitVec 2 × Bool))
deriving DecidableEq, Repr

/-- The code and value of the last main-context operation. -/
structure OpResult where
  code : Code
  value : Value
deriving DecidableEq, Repr

/-- The locals of the decoder (43 R161): the snapshot `r` (its `src` is the
identity), the slot, and the pre-mutation `on0` and `ss`. -/
structure DecCtx where
  r : RxRec
  slot : Option Nat
  on0 : Bool
  ss : Byte
deriving DecidableEq, Repr

/-- What the transceiver can do on its own (20 R66 (c), (d); 30 R88). -/
inductive EnvMove where
  /-- `RXFRAME`: a frame completes reception. -/
  | rxFrame (image : List Byte)
  /-- `TXDONE`: a transmission completes with this status. -/
  | txDone (status : Byte)
  /-- `READS`: the answers to the next reads of a location. -/
  | reads (l : Loc) (answers : List Byte)
  /-- Further interrupt causes are raised; the TX-complete cause ends the transmission in flight (10 R34 (d)). -/
  | raise (causes : Byte)
  /-- The line is driven whatever the causes are (an environment without law (3)). -/
  | line (level : Bool)
  /-- The transceiver changes a location by itself. -/
  | change (l : Loc) (v : Byte)
  /-- After this many more transactions the bus answers `stuck` (20 R68). -/
  | stick (after : Nat)
deriving DecidableEq, Repr

/-- One entry of the agenda: what happens next besides the main context (notes/assumptions/2.md). -/
inductive Act where
  /-- The environment moves. -/
  | env (m : EnvMove)
  /-- An interrupt run starts, if the entry condition of 42 R140 holds. -/
  | startIrq
  /-- The main context takes its next elementary step. -/
  | proceed
deriving DecidableEq, Repr

/-- The bytes one register space holds, in canonical form (`Memory.wf`). An unlisted location reads as a byte the
environment draws. -/
abbrev Memory := List Host.Cell

/-- The environment of the block: the transceiver behind the bus and the line (10 R34, 20 R66), and the data that stands
for its choices. -/
structure Env where
  shortMem : Memory
  longMem : Memory
  /-- The pending interrupt causes (10 R34 (a)), as one read of `A_INTSTAT` returns them. -/
  pending : Byte
  /-- `irq_line` (10 R35): true means "a cause is pending". -/
  irqLine : Bool
  /-- Reception is enabled (10 R34 (c)). -/
  rxEnabled : Bool
  /-- How many bytes from `A_RXFIFO` on are the image of the received frame of which 20 R66 law (2) speaks. -/
  imageLen : Nat
  /-- A transmission is in flight (10 R34 (d)); one flag, also for overlapping ones (notes/assumptions/31.md). -/
  txInFlight : Bool
  /-- `A_TXSTAT` describes an attempt, as 20 R66 law (5) says of it. -/
  attemptReported : Bool
  /-- The causes that drive the line (20 R57 `A_INTCON`, R66 law (3)), bit by bit as `A_INTSTAT` shows them. -/
  enabled : Byte
  /-- The channel value the radio was last tuned to (20 R57 `A_CHANNEL`). -/
  tuned : Byte
  /-- The RF state machine is held in reset (20 R57 `A_RFCTL`). -/
  rfReset : Bool
  /-- Scripted answers, in order (20 R67, 30 R88 `READS`). -/
  scripts : List (Loc × Byte)
  /-- What will happen besides the main context's steps, in order. -/
  agenda : List Act
  /-- What the environment does on its own during interrupt runs: one list of moves before each of the next elementary steps
  of the interrupt context (notes/assumptions/27.md). -/
  runMoves : List (List EnvMove)
  /-- The transaction, counted from the next one, that is answered `stuck` (20 R68). -/
  stuckAfter : Option Nat
  /-- How many free values have been drawn. -/
  draws : Nat
deriving DecidableEq, Repr

/-- The machine. -/
structure State where
  par : Params
  rxRec : RxRec
  txRec : TxRec
  mainCtl : Ctl
  irqCtl : Ctl
  rxEvent : Byte
  txEvent : Byte
  irqMask : Bool
  irqActive : Bool
  drv : DrvStatus
  cfg : RadioConfig
  txSeq : Byte
  localSeq : Byte
  dev : List DeviceRecord
  rstN : Bool
  dec : DecCtx
  env : Env
  hostq : List (List Byte)
  result : OpResult
  bus : List BusEvent
  pins : List PinEvent
  out : List OutEvent
deriving DecidableEq, Repr

/-- How the machine can stop. -/
inductive Fault where
  /-- `E_BUS_STUCK` (60 R196): a transaction of the given context was answered `stuck`; both contexts stop for good.
  Raised by every operation that issues a transaction. Safe: the spec's own terminal outcome. -/
  | busStuck (ctx : Ctx)
  /-- Raised by `step` alone, in a state in which an operation is partly done. Every step runs an operation to its end, so
  no step leaves such a state. Safe: notes/assumptions/25.md. -/
  | midOperation (op : Instr) (k : Nat)
deriving DecidableEq, Repr

/-- Why the machine gives a request no meaning. -/
inductive Refusal where
  /-- An instruction without a meaning; no instruction of this model is refused so. Safe. -/
  | notModelled (mnemonic : String)
  /-- Raised by `exec` of a main-context operation when `main_ctl` is not IDLE: "a new main-context operation starts only
  from IDLE" (10 R24), "the model offers the host no such step" (93 U19). Never raised by `step`. Safe. -/
  | mainBusy
  /-- Raised by `exec` of `IRQ` when the entry condition of 42 R140 does not hold ("can start exactly when all of these
  hold"), and of `RXPATH` and `TXPATH` when `irq_ctl` is not IDLE (42 R150). Never raised by `step`. Safe. -/
  | irqNotAdmitted
deriving DecidableEq, Repr

/-- The three outcomes of a step of this machine. -/
abbrev Outcome := Host.Outcome State Fault Refusal

/-! ## Updates, one per field -/

namespace State

def setRxRec (s : State) (x : RxRec) : State := { s with rxRec := x }
def setTxRec (s : State) (x : TxRec) : State := { s with txRec := x }
def setMainCtl (s : State) (x : Ctl) : State := { s with mainCtl := x }
def setIrqCtl (s : State) (x : Ctl) : State := { s with irqCtl := x }
def setRxEvent (s : State) (x : Byte) : State := { s with rxEvent := x }
def setTxEvent (s : State) (x : Byte) : State := { s with txEvent := x }
def setIrqMask (s : State) (x : Bool) : State := { s with irqMask := x }
def setIrqActive (s : State) (x : Bool) : State := { s with irqActive := x }
def setDrv (s : State) (x : DrvStatus) : State := { s with drv := x }
def setCfg (s : State) (x : RadioConfig) : State := { s with cfg := x }
def setTxSeq (s : State) (x : Byte) : State := { s with txSeq := x }
def setLocalSeq (s : State) (x : Byte) : State := { s with localSeq := x }
def setDev (s : State) (x : List DeviceRecord) : State := { s with dev := x }
def setRstN (s : State) (x : Bool) : State := { s with rstN := x }
def setDec (s : State) (x : DecCtx) : State := { s with dec := x }
def setEnv (s : State) (x : Env) : State := { s with env := x }
def setHostq (s : State) (x : List (List Byte)) : State := { s with hostq := x }
def setResult (s : State) (x : OpResult) : State := { s with result := x }
def pushBus (s : State) (x : BusEvent) : State := { s with bus := s.bus ++ [x] }
def pushPin (s : State) (x : PinEvent) : State := { s with pins := s.pins ++ [x] }
def emit (s : State) (x : OutEvent) : State := { s with out := s.out ++ [x] }

end State

/-! ## Power-on -/

/-- The RX record before the first frame: not valid; the other fields are unwritten and no rule reads them (10 R36). Their
values are a DESIGN CHOICE: notes/assumptions/7.md. -/
def RxRec.powerOn : RxRec where
  valid := false
  frameLen := 0
  hdrLen := 0
  fcf := 0
  seq := 0
  pan := 0
  dstLen := 0
  dst := []
  srcLen := 0
  src := []
  payloadLen := 0
  payload := []
  lqi := 0
  rssi := 0

/-- The TX record before the first completion (10 R36). -/
def TxRec.powerOn : TxRec where
  valid := false
  success := false
  retries := 0
  channelBusy := false

/-- The RadioConfig record at power-on (10 R28, R36). `channel` is unwritten in the spec; 11 is a DESIGN CHOICE
(notes/assumptions/6.md), and so are the zero bytes of an unset extended address (notes/assumptions/7.md). -/
def RadioConfig.powerOn (p : Params) : RadioConfig where
  pan := 0xFFFF
  short := 0xFFFF
  eadr := p.cfgEadr.getD (Vector.replicate 8 0)
  eadrValid := p.cfgEadr.isSome
  channel := 11
  promiscuous := false
  panController := false
  coordinator := false

/-- The environment at power-on: nothing known of any register (10 R36, 70 R221), no cause pending, nothing scripted. A
DESIGN CHOICE where a value must be named: notes/assumptions/9.md. -/
def Env.powerOn : Env where
  shortMem := []
  longMem := []
  pending := 0
  irqLine := false
  rxEnabled := true
  imageLen := 0
  txInFlight := false
  attemptReported := false
  enabled := 0xFF
  tuned := 0
  rfReset := false
  scripts := []
  agenda := []
  runMoves := []
  stuckAfter := none
  draws := 0

/-- The block right after power-on with the configuration `p` (10 R36, 70 R220). -/
def State.powerOn (p : Params) : State where
  par := p
  rxRec := .powerOn
  txRec := .powerOn
  mainCtl := .idle
  irqCtl := .idle
  rxEvent := 0
  txEvent := 0
  irqMask := false
  irqActive := false
  drv := .cold
  cfg := .powerOn p
  txSeq := 0
  localSeq := 0
  dev := p.whitelist.map fun id => ⟨id, false, 0⟩
  rstN := true
  dec := ⟨.powerOn, none, false, 0⟩
  env := .powerOn
  hostq := []
  result := ⟨.ok, .none⟩
  bus := []
  pins := []
  out := []

/-- The machine right after reset: the block's one reset is power-on, with the configuration of Machine/Defaults.lean. -/
def State.reset : State := .powerOn .default

end Sys2Proof.Machine
end

