-- ==== Sys2Proof/Machine/Ops.lean ====
section
/-! DEFINITION. Machine/Ops.lean: the named operations over the state. First the form of an operation (`Op`: it ends with a
value, with a `raise` of 00 R8 that keeps what was done, or stuck), then memory, the environment's side of a transaction
(20 R57, R66, R67), the two transactions (40 R100 to R106), the mask (20 R58), and the one asynchronous transfer of control
of the block: interrupt entry and return (60 R202, R203). -/

namespace Sys2Proof.Machine

/-! ## Operations -/

/-- How an operation ends early: a result code (00 R8 `raise`), or the whole machine stops (60 R196). -/
inductive Raise where
  | code (c : Code)
  | fault (f : Fault)
deriving DecidableEq, Repr

/-- An operation over the state. What was done before a `raise` stays done (60 R190). -/
abbrev Op := EStateM Raise State

/-- Look at the state. -/
def Op.view {α : Type} (f : State → α) : Op α := fun s => .ok (f s) s

/-- Change the state. -/
def Op.update (f : State → State) : Op Unit := fun s => .ok () (f s)

/-- `raise` (00 R8): the operation ends with the code. -/
def Op.raise {α : Type} (c : Code) : Op α := fun s => .error (.code c) s

/-- End with the code unless the condition holds. -/
def Op.require (b : Bool) (c : Code) : Op Unit := fun s => if b then .ok () s else .error (.code c) s

/-- Run an operation and give the code it ends with to the invoker (60 R190); only a stuck bus passes through. -/
def Op.attempt (x : Op Unit) : Op Code := fun s =>
  match x s with
  | .ok _ s' => .ok .ok s'
  | .error (.code c) s' => .ok c s'
  | .error (.fault f) s' => .error (.fault f) s'

/-! ## Memory -/

/-- The byte listed at an address, if one is. -/
def Memory.look : Memory → Nat → Option Byte
  | [], _ => none
  | (b, v) :: rest, a => if a = b then some v else Memory.look rest a

/-- Store a byte, keeping the addresses strictly rising. -/
def Memory.store : Memory → Nat → Byte → Memory
  | [], a, v => [(a, v)]
  | (b, w) :: rest, a, v =>
    if a < b then (a, v) :: (b, w) :: rest
    else if a = b then (a, v) :: rest
    else (b, w) :: Memory.store rest a v

/-- Forget `n` locations from `base` on: what they read as is no longer known. -/
def Memory.forget (m : Memory) (base n : Nat) : Memory :=
  m.filter fun c => decide (c.1 < base) || decide (base + n ≤ c.1)

/-- The canonical form of a space of the given size: addresses strictly rising and below the size. Every listed entry
differs from what an unlisted location reads as, which is no fixed byte. -/
def Memory.wf (size : Nat) : Memory → Bool
  | [] => true
  | (a, _) :: rest => decide (a < size) && rest.all (fun c => decide (a < c.1)) && Memory.wf size rest

/-! ## The environment's side of a transaction -/

/-- The location `k` addresses further (30 R90 (i): plain addition). -/
def locPlus (l : Loc) (k : Nat) : Loc := { l with addr := l.addr + BitVec.ofNat 12 k }

/-- The bytes of a space. -/
def Env.mem (e : Env) : Space → Memory
  | .short => e.shortMem
  | .long => e.longMem

/-- Replace the bytes of a space. -/
def Env.setMem (e : Env) (sp : Space) (m : Memory) : Env :=
  match sp with
  | .short => { e with shortMem := m }
  | .long => { e with longMem := m }

/-- The byte the transceiver holds at a location, if it is known. -/
def Env.peek (e : Env) (l : Loc) : Option Byte := Memory.look (e.mem l.space) l.addr.toNat

/-- The transceiver now holds `v` at `l`; a location that does not exist holds nothing. -/
def Env.poke (e : Env) (l : Loc) (v : Byte) : Env :=
  if l.inRange then e.setMem l.space (Memory.store (e.mem l.space) l.addr.toNat v) else e

/-- Store consecutive bytes from a location on. -/
def Env.pokeAll (e : Env) (l : Loc) : List Byte → Env
  | [] => e
  | v :: vs => Env.pokeAll (e.poke l v) (locPlus l 1) vs

/-- The RX FIFO window (20 R62). -/
def inRxFifo (r : RegMap) (l : Loc) : Bool := l.inWindow r.rxfifo 130

/-- Law (1) of 20 R66: the location reads back the last byte written to it since the last reset. -/
def keepsByte (r : RegMap) (l : Loc) : Bool :=
  decide (l ∈ [r.panl, r.panh, r.sadrl, r.sadrh, r.rxmcr, r.txmcr, r.order]) || l.inWindow r.eadr0 8

/-- The laws of 20 R66 that fix what a location reads as: (1); (2), the bytes of the RX FIFO window that are the image of the
last received frame, while reception is disabled; (5), `A_TXSTAT` once it describes an attempt. Everything else is the
environment's choice, also a byte of the window past the image, and what the block wrote itself to the window or to
`A_TXSTAT` (93 U9; notes/assumptions/10.md). -/
def Env.fixed (r : RegMap) (e : Env) (l : Loc) : Bool :=
  keepsByte r l || (l.inWindow r.rxfifo e.imageLen && !e.rxEnabled) || (decide (l = r.txstat) && e.attemptReported)

/-- Take the first scripted answer for a location (20 R67: "the read returns the next byte of the vector's script"). -/
def takeScript (l : Loc) : List (Loc × Byte) → Option (Byte × List (Loc × Byte))
  | [] => none
  | (l', v) :: rest =>
    if l' = l then some (v, rest)
    else (takeScript l rest).map fun x => (x.1, (l', v) :: x.2)

/-- What the transceiver answers to a read: a scripted byte; at `A_INTSTAT` the pending causes (law (4)); the byte a law
fixes; else a byte it draws (20 R66 (a)). -/
def Env.answer (r : RegMap) (e : Env) (l : Loc) : Byte × Env :=
  match takeScript l e.scripts with
  | some (v, rest) => (v, { e with scripts := rest })
  | none =>
    if l = r.intstat then (e.pending, e)
    else
      match (if e.fixed r l then e.peek l else none) with
      | some v => (v, e)
      | none => (Config.freeByte e.draws, { e with draws := e.draws + 1 })

/-- The side effect of a read (20 R57): reading `A_INTSTAT` clears the pending causes and the line falls. -/
def Env.afterRead (r : RegMap) (e : Env) (l : Loc) : Env :=
  if l = r.intstat then { e with pending := 0, irqLine := false } else e

/-- A read of a location by the block. -/
def Env.read (r : RegMap) (e : Env) (l : Loc) : Byte × Env :=
  ((e.answer r l).1, (e.answer r l).2.afterRead r l)

/-- Law (3) of 20 R66: the line is high exactly while some enabled cause is pending. -/
def lineOf (pending enabled : Byte) : Bool := if pending = 0 then false else decide (pending &&& enabled ≠ 0)

/-- The line follows the causes: applied wherever a cause is raised or the enabled ones change. -/
def Env.driveLine (e : Env) : Env := { e with irqLine := lineOf e.pending e.enabled }

/-- The cause bits of `A_INTSTAT` that the block knows (30 R79): what `V_INTCON` enables, "exactly the normal-FIFO and RX
interrupt sources" (10 R32, 60 R199). -/
def knownCauses (r : RegMap) : Byte := BitVec.twoPow 8 r.bRxif.val ||| BitVec.twoPow 8 r.bTxif.val

/-- A hardware or soft reset of the transceiver: no register holds a known byte any more (20 R66 law (1), 70 R222), which
causes are enabled, the channel and the state of the RF state machine are the transceiver's choice (60 R199, 70 R221), and
reception is its own (41 R123); DEDUCED: notes/assumptions/10.md. -/
def Env.chipReset (e : Env) : Env :=
  Env.driveLine { e with
    shortMem := [], longMem := [], rxEnabled := true, imageLen := 0, attemptReported := false,
    enabled := Config.freeByte e.draws, tuned := Config.freeByte (e.draws + 1), rfReset := (Config.freeByte (e.draws + 2)).getLsbD 0, draws := e.draws + 3 }

/-- The RX FIFO is emptied (20 R57, `A_RXFLUSH`). -/
def Env.flushRx (r : RegMap) (e : Env) : Env :=
  { e.setMem r.rxfifo.space (Memory.forget (e.mem r.rxfifo.space) r.rxfifo.addr.toNat 130) with imageLen := 0 }

/-- Reception after a write of `v` to `A_RXCTL` (10 R32). -/
def rxEnabledAfter (r : RegMap) (v : Byte) (now : Bool) : Bool :=
  if v = r.vRxdis then false else if v = r.vRxen then true else now

/-- The values that start a transmission when written to `A_TXNCON` (10 R32). -/
def isTrigger (r : RegMap) (v : Byte) : Bool := decide (v = r.vTxtrig) || decide (v = r.vTxtrigAck)

/-- A write to `A_TXNCON` (20 R57): a trigger value starts a transmission (10 R32, R34 (d)), an attempt that `A_TXSTAT` does
not describe yet (20 R66 law (5)). -/
def Env.trigger (r : RegMap) (e : Env) (v : Byte) : Env :=
  { e with txInFlight := e.txInFlight || isTrigger r v, attemptReported := e.attemptReported && !isTrigger r v }

/-- A write to `A_RXCTL` (20 R57): reception stops or restarts. -/
def Env.switchRx (r : RegMap) (e : Env) (v : Byte) : Env := { e with rxEnabled := rxEnabledAfter r v e.rxEnabled }

/-- A write to `A_RFCTL` (20 R57): the reset bits of the RF state machine are set or cleared (10 R32). -/
def Env.resetRf (r : RegMap) (e : Env) (v : Byte) : Env :=
  { e with rfReset := if v = r.vRfrstSet then true else if v = r.vRfrstClr then false else e.rfReset }

/-- A write to `A_INTCON` (20 R57): `V_INTCON` enables exactly the two causes the block knows (10 R32, 60 R199); what any
other byte enables is not stated and is a free value. The line follows (20 R66 law (3)). -/
def Env.enableCauses (r : RegMap) (e : Env) (v : Byte) : Env :=
  Env.driveLine (if v = r.vIntcon then { e with enabled := knownCauses r }
    else { e with enabled := Config.freeByte e.draws, draws := e.draws + 1 })

/-- A write to `A_CHANNEL` (20 R57): the radio is tuned to the value. -/
def Env.retune (e : Env) (v : Byte) : Env := { e with tuned := v }

/-- The effect `f` of a role of the register map that stands at `role`, for a write to `l`. -/
def Env.atRole (e : Env) (l role : Loc) (f : Env → Env) : Env := if l = role then f e else e

/-- The byte the block writes is stored. One in the RX FIFO window or at `A_TXSTAT` is no report of the transceiver, so that
laws (2) and (5) of 20 R66 do not speak of it (93 U9). DESIGN CHOICE, safe: after one write in the window the whole window is
no image of a received frame any more (notes/assumptions/10.md). -/
def Env.stored (r : RegMap) (e : Env) (l : Loc) (v : Byte) : Env :=
  { e.poke l v with
    imageLen := if inRxFifo r l then 0 else e.imageLen, attemptReported := e.attemptReported && !decide (l = r.txstat) }

/-- A write of `v` to a location by the block: the byte is stored, and every role of 20 R57 that the location has does
something more. What a write to the RX FIFO window or to `A_TXSTAT` leaves there to be read is a free value, which no law
fixes (`Env.stored`). DESIGN CHOICE, unsafe: where the OPEN map gives several roles one location, all their effects happen, in the
order of 20 R57's list (notes/assumptions/30.md). -/
def Env.write (r : RegMap) (e : Env) (l : Loc) (v : Byte) : Env :=
  (((((((e.stored r l v).atRole l r.softrst Env.chipReset).atRole l r.rxflush (Env.flushRx r)).atRole l r.txncon
    (Env.trigger r · v)).atRole l r.rxctl (Env.switchRx r · v)).atRole l r.rfctl (Env.resetRf r · v)).atRole l r.intcon
    (Env.enableCauses r · v)).atRole l r.channel (Env.retune · v)

/-- The transceiver raises causes: they are pending, the TX-complete cause ends the transmission in flight (10 R34 (d):
"until the TX-complete cause is raised"), and the line follows. DESIGN CHOICE, unsafe: where a second trigger write came before
the first TX-complete cause (70 R230), that first cause ends both: whether the second transmission is still in flight after
it is not in the spec (93 U10; notes/assumptions/31.md). -/
def Env.raiseCauses (r : RegMap) (e : Env) (causes : Byte) : Env :=
  Env.driveLine { e with
    pending := e.pending ||| causes, txInFlight := e.txInFlight && !causes.getLsbD r.bTxif.val }

/-- How many of the bytes stored for a frame are its image: up to the signal strength, the byte `2 + L` (30 R77). -/
def imageEnd (image : List Byte) : Nat := min image.length (3 + (image.headD 0).toNat)

/-- A frame completes reception (30 R88 `RXFRAME`, law (2)): its bytes are stored from `A_RXFIFO` on, and what the window holds
past the end of its image (30 R77) is no part of it; while reception is disabled the frame leaves no trace (10 R34 (e), 70 R227). -/
def Env.rxFrame (r : RegMap) (e : Env) (image : List Byte) : Env :=
  if e.rxEnabled then
    Env.raiseCauses r { e.pokeAll r.rxfifo (image.take 130) with imageLen := imageEnd (image.take 130) } (BitVec.twoPow 8 r.bRxif.val)
  else e

/-- A transmission completes (30 R88 `TXDONE`, law (5)). -/
def Env.txDone (r : RegMap) (e : Env) (status : Byte) : Env :=
  Env.raiseCauses r { e.poke r.txstat status with attemptReported := true } (BitVec.twoPow 8 r.bTxif.val)

/-- The transceiver moves on its own. -/
def Env.apply (r : RegMap) (e : Env) : EnvMove → Env
  | .rxFrame image => e.rxFrame r image
  | .txDone status => e.txDone r status
  | .reads l answers => { e with scripts := e.scripts ++ answers.map fun v => (l, v) }
  | .raise causes => e.raiseCauses r causes
  | .line level => { e with irqLine := level }
  | .change l v => e.poke l v
  | .stick after => { e with stuckAfter := some after }

/-- The environment moves. -/
def State.envMove (s : State) (m : EnvMove) : State := s.setEnv (s.env.apply s.par.reg m)

/-- One transaction has completed: a scheduled `stuck` answer comes one nearer. -/
def Env.tickBus (e : Env) : Env := { e with stuckAfter := e.stuckAfter.map (· - 1) }

/-! ## The two transactions -/

/-- The state after a read transaction: the environment has answered, and the trace is one longer (40 R100). -/
def State.afterBusRead (s : State) (c : Ctx) (l : Loc) : State :=
  (s.setEnv (s.env.read s.par.reg l).2.tickBus).pushBus
    ⟨c, .read, l, (s.env.read s.par.reg l).1, wireRead s.par l⟩

/-- The state after a write transaction. -/
def State.afterBusWrite (s : State) (c : Ctx) (l : Loc) (v : Byte) : State :=
  (s.setEnv (s.env.write s.par.reg l v).tickBus).pushBus ⟨c, .write, l, v, wireWrite s.par l v⟩

/-- A read transaction issued by a context (40 R101, R103): refused before anything is on the wire when the address cannot
be encoded (40 R105), stuck when the environment answers so (40 R106). -/
def busRead (c : Ctx) (l : Loc) : Op Byte := fun s =>
  if l.inRange = false then .error (.code .badBusAddr) s
  else if s.env.stuckAfter = some 0 then .error (.fault (.busStuck c)) s
  else .ok (s.env.read s.par.reg l).1 (s.afterBusRead c l)

/-- A write transaction issued by a context (40 R102, R104, R105, R106). -/
def busWrite (c : Ctx) (l : Loc) (v : Byte) : Op Unit := fun s =>
  if l.inRange = false then .error (.code .badBusAddr) s
  else if s.env.stuckAfter = some 0 then .error (.fault (.busStuck c)) s
  else .ok () (s.afterBusWrite c l v)

/-! ## Masking, interrupt entry and return -/

/-- `mask_irq()` (20 R58). -/
def maskIrq : Op Unit := .update (·.setIrqMask true)

/-- `unmask_irq()` (20 R58). -/
def unmaskIrq : Op Unit := .update (·.setIrqMask false)

/-- The entry condition of 42 R140, at a point between two main-context steps: the line is high, no mask, no run active. -/
def entryCond (s : State) : Bool :=
  s.env.irqLine && !s.irqMask && !s.irqActive && decide (s.irqCtl = .idle)

/-- Interrupt entry (60 R202): `irq_active` is set and `irq_ctl` becomes RUNNING(IRQ, 0). Nothing is saved: the main context's
control state and everything else stay as they are. -/
def enterIrq (s : State) : State := (s.setIrqActive true).setIrqCtl (.running .irq 0)

/-- Interrupt return (60 R203): the main context continues with the step it was about to take. -/
def returnIrq (s : State) : State := (s.setIrqActive false).setIrqCtl .idle

/-! ## The outcome of a whole operation -/

/-- A main-context operation ends: the control state is IDLE again and the code and value go to the invoker (60 R190). -/
def State.finish (s : State) (c : Code) (v : Value) : State := (s.setMainCtl .idle).setResult ⟨c, v⟩

/-- Run a main-context operation from its first elementary step to its end. It starts only from IDLE (10 R24, 41 R110). -/
def runMain (i : Instr) (x : Op Value) (s : State) : Outcome :=
  match s.mainCtl with
  | .running _ _ => .refused .mainBusy
  | .idle =>
    match x (s.setMainCtl (.running i 0)) with
    | .ok v t => .next (t.finish .ok v)
    | .error (.code c) t => .next (t.finish c .none)
    | .error (.fault f) _ => .fault f

/-- Run an interrupt sequence on its own; it starts only from `irq_ctl` IDLE (42 R150). -/
def runIrqPath (i : Instr) (x : Op Unit) (s : State) : Outcome :=
  match s.irqCtl with
  | .running _ _ => .refused .irqNotAdmitted
  | .idle =>
    match x (s.setIrqCtl (.running i 0)) with
    | .ok _ t => .next (t.setIrqCtl .idle)
    | .error (.code _) t => .next (t.setIrqCtl .idle)
    | .error (.fault f) _ => .fault f

end Sys2Proof.Machine
end

