-- ==== Sys2Proof/Machine/Operands.lean ====
section
/-! DEFINITION. Machine/Operands.lean: every operand form of the block, put together as spec/30_encoding.md says (R73 to R77,
R80, R83, R84, R86, R90): FrameControl, the frame header, the TX image, the shape of a received frame, the channel value,
the reply payloads, the DeviceTable lookup. -/

namespace Sys2Proof.Machine

/-! ## FrameControl (30 R73) -/

/-- Frame type, bits 2:0. -/
def fcfType (f : Half) : BitVec 3 := f.extractLsb' 0 3
/-- Security-enabled, bit 3. -/
def fcfSec (f : Half) : Bool := f.getLsbD 3
/-- Frame-pending, bit 4. -/
def fcfPend (f : Half) : Bool := f.getLsbD 4
/-- Ack-request, bit 5. -/
def fcfAck (f : Half) : Bool := f.getLsbD 5
/-- PAN-ID-compression, bit 6. -/
def fcfPancomp (f : Half) : Bool := f.getLsbD 6
/-- The reserved bit, bit 7. -/
def fcfRsvd (f : Half) : Bool := f.getLsbD 7
/-- Sequence-number-suppression, bit 8. -/
def fcfSeqsup (f : Half) : Bool := f.getLsbD 8
/-- Information-elements-present, bit 9. -/
def fcfIe (f : Half) : Bool := f.getLsbD 9
/-- Destination-addressing-mode, bits 11:10. -/
def fcfDm (f : Half) : BitVec 2 := f.extractLsb' 10 2
/-- Frame-version, bits 13:12. -/
def fcfVer (f : Half) : BitVec 2 := f.extractLsb' 12 2
/-- Source-addressing-mode, bits 15:14. -/
def fcfSm (f : Half) : BitVec 2 := f.extractLsb' 14 2

/-- `alen` (30 R74): mode 0 has no address, mode 2 a short one, mode 3 an extended one; mode 1 has no length. -/
def alen (m : BitVec 2) : Option Nat :=
  if m = 0 then some 0 else if m = 2 then some 2 else if m = 3 then some 8 else none

/-- The lengths a FrameControl fixes (30 R90 (d)). -/
structure HdrShape where
  dl : Nat
  sl : Nat
deriving DecidableEq, Repr

/-- `hdr = 5 + dl + sl` (30 R75). -/
def hdrLen (h : HdrShape) : Nat := 5 + h.dl + h.sl

/-- The address lengths of a FrameControl; none when a mode is 1 (30 R74, 41 R126). -/
def hdrShape (f : Half) : Option HdrShape :=
  match alen (fcfDm f), alen (fcfSm f) with
  | some dl, some sl => some ⟨dl, sl⟩
  | _, _ => none

/-! ## Transmission (30 R76, 41 R125) -/

/-- Both length bounds of a frame to send (41 R125: `len ≤ 116` and `hdr + len ≤ 127`). -/
def lengthOk (hdr len : Nat) : Bool := decide (len ≤ Config.maxPayload) && decide (hdr + len ≤ Config.maxFrame)

/-- A length as the byte written to the FIFO. -/
def countByte (n : Nat) : Byte := BitVec.ofNat 8 n

/-- A 16-bit field as written to a FIFO: low byte first (20 R52). -/
def leBytes (v : Half) : List Byte := [v.lo, v.hi]

/-- The source address `S` of 41 R125: the extended address, the short address low byte first, or nothing. -/
def srcAddr (c : RadioConfig) (sl : Nat) : List Byte :=
  if sl = 8 then c.eadr.toList else if sl = 2 then leBytes c.short else []

/-- The first four bytes of the TX image: header length, frame length, FrameControl (30 R76; 90 C3). -/
def txPrefix (hdr len : Nat) (fcf : Half) : List Byte := countByte hdr :: countByte (hdr + len) :: leBytes fcf

/-- The FrameControl `send16_ack` uses (41 R127): type 1, ack-request, PAN-compression, both modes 2. -/
def fcfSend16 : Half := 0x8861

/-- `send16_ack`'s header length (41 R127). -/
def hdrSend16 : Nat := 9

/-! ## Reception (30 R77, R86) -/

/-- The shape of a received frame. -/
structure RxShape where
  dl : Nat
  sl : Nat
  hdr : Nat
  n : Nat
deriving DecidableEq, Repr

/-- Line 4 of 42 R142: the shape of a frame with length prefix `L` and FrameControl `f`; none when it is dropped (42 R143). -/
def rxShape (p : Params) (L : Nat) (f : Half) : Option RxShape :=
  match hdrShape f with
  | none => none
  | some h =>
    if Config.maxFrame < L then none
    else if L < hdrLen h + p.rxTrailerLen then none
    else if Config.maxPayload < L - hdrLen h - p.rxTrailerLen then none
    else some ⟨h.dl, h.sl, hdrLen h, L - hdrLen h - p.rxTrailerLen⟩

/-! ## The channel value (30 R80) -/

/-- `((n - 11) << 4) | 0x03`. -/
def channelValue (n : Byte) : Byte := ((n - 11) <<< 4) ||| 0x03

/-- The channels there are (41 R115). -/
def channelOk (n : Byte) : Bool := decide (11 ≤ n.toNat) && decide (n.toNat ≤ 26)

/-! ## Read-modify-write of one bit (30 R89) -/

/-- `t | (1 << b)`. -/
def bitSet (t : Byte) (b : Fin 8) : Byte := t ||| BitVec.twoPow 8 b.val

/-- `t & ~(1 << b) & 0xFF`. -/
def bitClear (t : Byte) (b : Fin 8) : Byte := t &&& ~~~BitVec.twoPow 8 b.val

/-- The bit put to a Boolean. -/
def bitPut (t : Byte) (b : Fin 8) (v : Bool) : Byte := if v then bitSet t b else bitClear t b

/-! ## Replies (30 R83, R84) -/

/-- `FCF_REPLY_ACK`. -/
def fcfReplyAck : Half := 0xCC61

/-- `FCF_REPLY_NOACK`. -/
def fcfReplyNoack : Half := 0xCC41

/-- The FrameControl of the reply to 0x07 (30 R84). -/
def fcfReplyM07 (p : Params) : Half := if p.ackM07 then fcfReplyAck else fcfReplyNoack

/-- The device kind the reply to 0x07 names: door, feeder or neither (43 R164). -/
def kindByte (p1 : Byte) : Byte := if p1 = 0x0F then 0x01 else if p1 = 0x2F then 0x02 else 0x00

/-- `M07`'s reply payload. -/
def bodyM07 (p1 : Byte) : List Byte := [0xFF, 0x45, 0x00, 0x00, 0x7E, kindByte p1, 0x00]

/-- `M01A`'s reply payload, the association response. -/
def bodyM01A : List Byte := [0x02, 0xFE, 0xFF, 0x00]

/-- `M13`'s reply payload. -/
def bodyM13 (ls p1 : Byte) : List Byte := [0x14, ls, p1, 0x00]

/-- `M08`'s reply payload. -/
def bodyM08 (cont : Bool) (ls ss : Byte) : List Byte := [if cont then 0x09 else 0x0A, ls, ss]

/-- `M01D`'s reply payload. -/
def bodyM01D (cont : Bool) (ls p1 : Byte) : List Byte := [if cont then 0x09 else 0x02, ls, p1, 0x00]

/-- `M02`'s reply payload. -/
def bodyM02 (cont : Bool) (ls ss : Byte) : List Byte := [if cont then 0x09 else 0x0A, ls, ss, 0x00]

/-! ## The DeviceTable (10 R31, 43 R161) -/

/-- The slot whose identity equals the given source, byte for byte; identities are pairwise distinct, so the first is the
only one. -/
def findSlot : List DeviceRecord → List Byte → Option Nat
  | [], _ => none
  | d :: rest, id => if d.identity.toList = id then some 0 else (findSlot rest id).map (· + 1)

/-- Change the record of a slot; no slot, no change (43 R172). -/
def updateSlot (dev : List DeviceRecord) (slot : Option Nat) (f : DeviceRecord → DeviceRecord) : List DeviceRecord :=
  match slot with
  | none => dev
  | some i => dev.modify i f

/-- The decoder's locals for a snapshot (43 R161): with an extended source the slot and its pre-mutation values, else none
(43 R180, R172). -/
def decCtx (p : Params) (dev : List DeviceRecord) (r : RxRec) : DecCtx :=
  if r.srcLen = 8 then
    match findSlot dev r.src with
    | none => ⟨r, none, false, p.unknownSeq⟩
    | some i =>
      match dev[i]? with
      | none => ⟨r, none, false, p.unknownSeq⟩
      | some d => ⟨r, some i, d.online, d.sequence⟩
  else ⟨r, none, false, p.unknownSeq⟩

/-- The decoder action for a snapshot: a source that is not extended is malformed (43 R180), else 43 R162. -/
def actionOf (d : DecCtx) : Instr := if d.r.srcLen = 8 then decodeMsg d.on0 d.r.payload else .malformed

end Sys2Proof.Machine
end

