-- ==== Sys2Proof/Machine/Flags.lean ====
section
/-! DEFINITION. Machine/Flags.lean: the flag-like computations of the block: the saturating event counters (10 R25, 42 R145),
the wrapping sequence numbers (10 R29, R30, 43 R178), the TX status byte (30 R78, 42 R144), the interrupt status tests
(30 R79), the continuation flag (30 R81), the match of a bounded poll (41 R114). -/

namespace Sys2Proof.Machine

/-- `sat_inc8` (00 R8): 255 stays 255. -/
def satInc8 (c : Byte) : Byte := if c = 255 then 255 else c + 1

/-- `+_8 1`: the sequence numbers wrap from 255 to 0 (43 R178). -/
def inc8 (c : Byte) : Byte := c + 1

/-- A sticky event counter is tested only against zero (10 R25). -/
def eventPending (c : Byte) : Bool := decide (c ≠ 0)

/-- The completion record of a TX status byte (30 R78, 42 R144): bit 0 is failure, bits 7:6 the retry count, `B_CCAFAIL`
channel busy; the other bits are ignored. -/
def txRecOf (r : RegMap) (t : Byte) : TxRec where
  valid := true
  success := !t.getLsbD 0
  retries := t.extractLsb' 6 2
  channelBusy := t.getLsbD r.bCcafail.val

/-- The RX-ready bit of an interrupt status byte (30 R79). -/
def rxReady (r : RegMap) (s : Byte) : Bool := s.getLsbD r.bRxif.val

/-- The TX-complete bit of an interrupt status byte (30 R79). -/
def txComplete (r : RegMap) (s : Byte) : Bool := s.getLsbD r.bTxif.val

/-- The continuation flag: `payload[2]` bit 0; bits 7:1 are not interpreted (30 R81). -/
def contFlag (p2 : Byte) : Bool := p2.getLsbD 0

/-- A bounded poll's test: `(t & m) = v` (41 R114). -/
def pollMatch (t m v : Byte) : Bool := decide (t &&& m = v)

end Sys2Proof.Machine
end

