-- ==== Sys2Proof/Machine/InterruptBridge.lean ====
section
/-! DEFINITION. Machine/InterruptBridge.lean: the interrupt context (spec/42_interrupt_bridge.md): `IRQ` R141, `RXPATH` R142
with its drops R143, `TXPATH` R144. Nothing here looks at the agenda: an interrupt run is never preempted (20 R56); only the
environment can move between two of its steps (20 R66 (d), 42 R150). -/

namespace Sys2Proof.Machine

/-- What the environment does on its own before the next elementary step of the interrupt context (42 R150: a cause raised
during a run stays pending). -/
def runBoundary : Op Unit := fun s =>
  match s.env.runMoves with
  | [] => .ok () s
  | ms :: rest => .ok () (ms.foldl State.envMove (s.setEnv { s.env with runMoves := rest }))

/-- One elementary step of the interrupt context: what the environment does before it, then `k` advances (10 R24), then the
step. -/
def irqElem {α : Type} (x : Op α) : Op α := do
  runBoundary
  Op.update fun s => s.setIrqCtl s.irqCtl.tick
  x

/-- A read transaction of the interrupt context. -/
def irqRead (l : Loc) : Op Byte := irqElem (busRead .irq l)

/-- A write transaction of the interrupt context. -/
def irqWrite (l : Loc) (v : Byte) : Op Unit := irqElem (busWrite .irq l v)

/-- `LRD(b + k)` for `n` consecutive offsets from `off` on (42 R142 lines 7 to 9). -/
def readFifo (base : Loc) : Nat → Nat → Op (List Byte)
  | _, 0 => pure []
  | off, n + 1 => do
    let v ← irqRead (locPlus base off)
    let vs ← readFifo base (off + 1) n
    pure (v :: vs)

/-- Lines 5 to 11 of 42 R142: read the rest of a frame of the given shape, commit the record in one step, re-enable
reception, count the event. -/
def commitFrame (p : Params) (L : Byte) (fcf : Half) (h : RxShape) : Op Unit := do
  let b := p.reg.rxfifo
  let q ← irqRead (locPlus b 3)
  let pl ← irqRead (locPlus b 4)
  let ph ← irqRead (locPlus b 5)
  let d ← readFifo b 6 h.dl
  let s ← readFifo b (6 + h.dl) h.sl
  let body ← readFifo b (1 + h.hdr) h.n
  let lq ← irqRead (locPlus b (1 + L.toNat))
  let rs ← irqRead (locPlus b (2 + L.toNat))
  irqElem (Op.update (·.setRxRec
    { valid := true, frameLen := L.toNat, hdrLen := h.hdr, fcf := fcf, seq := q, pan := half ph pl,
      dstLen := h.dl, dst := d, srcLen := h.sl, src := s, payloadLen := h.n, payload := body, lqi := lq, rssi := rs }))
  irqWrite p.reg.rxctl p.reg.vRxen
  irqElem (Op.update fun s => s.setRxEvent (satInc8 s.rxEvent))

/-- `RXPATH` (42 R142): read one frame from the RX FIFO into `rx_rec`, or drop it (42 R143) and leave the record alone. -/
def opRxpath : Op Unit := do
  let p ← Op.view (·.par)
  irqWrite p.reg.rxctl p.reg.vRxdis
  let L ← irqRead (locPlus p.reg.rxfifo 0)
  let lo ← irqRead (locPlus p.reg.rxfifo 1)
  let hi ← irqRead (locPlus p.reg.rxfifo 2)
  match rxShape p L.toNat (half hi lo) with
  | none => irqWrite p.reg.rxctl p.reg.vRxen
  | some h => commitFrame p L (half hi lo) h

/-- `TXPATH` (42 R144): capture the completion status and count the event. -/
def opTxpath : Op Unit := do
  let p ← Op.view (·.par)
  let t ← irqRead p.reg.txstat
  irqElem (Op.update (·.setTxRec (txRecOf p.reg t)))
  irqElem (Op.update fun s => s.setTxEvent (satInc8 s.txEvent))

/-- The body of `IRQ` (42 R141): one read of the status, then `RXPATH` if its bit is set, then `TXPATH` if its bit is set. -/
def opIrq : Op Unit := do
  let p ← Op.view (·.par)
  let st ← irqRead p.reg.intstat
  (if rxReady p.reg st then opRxpath else pure ())
  (if txComplete p.reg st then opTxpath else pure ())

/-- A whole interrupt run: entry (60 R202), the body, return (60 R203). The interrupt context has no caller: no result code
leaves it (60 R190). Only with a register map outside the spec's ranges can a transaction of it be refused, and the run then
ends there (notes/assumptions/17.md). -/
def irqRun : Op Unit := fun s =>
  match opIrq (enterIrq s) with
  | .ok _ t => .ok () (returnIrq t)
  | .error (.code _) t => .ok () (returnIrq t)
  | .error (.fault f) t => .error (.fault f) t

/-- `IRQ` (42 R141): a run, started only under the entry condition (42 R140). -/
def execIrq (s : State) : Outcome :=
  if entryCond s then
    match irqRun s with
    | .ok _ t => .next t
    | .error (.fault f) _ => .fault f
    | .error (.code _) t => .next t
  else .refused .irqNotAdmitted

/-- `RXPATH` (42 R142), as the step that `IRQ` selects. -/
def execRxpath (s : State) : Outcome := runIrqPath .rxpath opRxpath s

/-- `TXPATH` (42 R144), as the step that `IRQ` selects. -/
def execTxpath (s : State) : Outcome := runIrqPath .txpath opTxpath s

end Sys2Proof.Machine
end

