-- ==== Sys2Proof/Machine/Contexts.lean ====
section
/-! DEFINITION. Machine/Contexts.lean: how the two contexts interleave (20 R54, R56, 42 R140). Between two elementary steps of
the main context (a bus transaction, a wait, a state update and an `emit` are each one) the environment may move and
interrupt runs may be inserted; the agenda in the state says which (notes/assumptions/2.md). -/

namespace Sys2Proof.Machine

/-- What is left of the agenda. -/
def State.setAgenda (s : State) (as : List Act) : State := s.setEnv { s.env with agenda := as }

/-- One free value has been drawn. -/
def State.bumpDraws (s : State) : State := s.setEnv { s.env with draws := s.env.draws + 1 }

/-- What happens between two elementary steps of the main context, by the agenda `as`: the acts up to the next `proceed`.
`startIrq` starts a run only if the entry condition holds then; with the agenda exhausted, a run that could start does so
by a free choice. DESIGN CHOICE, unsafe: with the agenda exhausted at most one run is drawn at a boundary, and then the main
context takes its step; the new run that 60 R203 lets start at once while the line is still high takes a `startIrq` of the
agenda (notes/assumptions/4.md). -/
def drain : List Act → Op Unit
  | [] => fun s =>
    if entryCond s then
      if Config.freePreempt s.env.draws then irqRun (s.setAgenda []).bumpDraws else .ok () (s.setAgenda []).bumpDraws
    else .ok () (s.setAgenda [])
  | .proceed :: as => fun s => .ok () (s.setAgenda as)
  | .env m :: as => fun s => drain as (s.envMove m)
  | .startIrq :: as => fun s =>
    if entryCond s then
      match irqRun s with
      | .ok _ t => drain as t
      | .error e t => .error e t
    else drain as s

/-- A point between two elementary steps of the main context. -/
def boundary : Op Unit := fun s => drain s.env.agenda s

/-- One elementary step of the main context: what comes between, then `k` advances (10 R24), then the step. -/
def elem {α : Type} (x : Op α) : Op α := do
  boundary
  Op.update fun s => s.setMainCtl s.mainCtl.tick
  x

/-- A read transaction of the main context. -/
def mainRead (l : Loc) : Op Byte := elem (busRead .main l)

/-- A write transaction of the main context. -/
def mainWrite (l : Loc) (v : Byte) : Op Unit := elem (busWrite .main l v)

/-- A state update of the main context. -/
def mainUpdate (f : State → State) : Op Unit := elem (Op.update f)

/-- `wait at least T` (41 R111): one step of unknown duration (70 R236). -/
def mainWait (ms : Nat) : Op Unit := mainUpdate (·.pushPin (.waitAtLeast ms))

/-- `emit` (00 R8). -/
def mainEmit (e : OutEvent) : Op Unit := mainUpdate (·.emit e)

/-- `wr_pair(lo, hi, v)` (30 R89): low byte, then high byte. -/
def wrPair (lo hi : Loc) (v : Half) : Op Unit := do
  mainWrite lo v.lo
  mainWrite hi v.hi

/-- `rd_pair(lo, hi)` (30 R89). -/
def rdPair (lo hi : Loc) : Op Half := do
  let l ← mainRead lo
  let h ← mainRead hi
  pure (half h l)

/-- `wr_fifo(base + off, bytes)` (30 R89), in ascending order. -/
def wrFifo (base : Loc) : Nat → List Byte → Op Unit
  | _, [] => pure ()
  | off, b :: bs => do
    mainWrite (locPlus base off) b
    wrFifo base (off + 1) bs

/-- `poll_until(space, a, m, v)` with `k` reads left (41 R114): ends at the first matching read. -/
def pollUntil (l : Loc) (m v : Byte) : Nat → Op Bool
  | 0 => pure false
  | k + 1 => do
    let t ← mainRead l
    (if pollMatch t m v then pure true else pollUntil l m v k)

/-- Admission (41 R110): the operation is accepted only in READY. -/
def requireReady : Op Unit := do
  let d ← Op.view (·.drv)
  Op.require (decide (d = .ready)) .notReady

end Sys2Proof.Machine
end

