-- ==== Sys2Proof/Machine/RegisterBus.lean ====
section
/-! DEFINITION. Machine/RegisterBus.lean: the four bus transactions as operations (spec/40_register_bus.md R100 to R106). The
host has no direct access to them (40 R100); they run here as elementary steps of the main context. An address outside its
space is refused before anything else happens (40 R105). -/

namespace Sys2Proof.Machine

/-- The range check of a transaction issued as an operation (40 R105). -/
def requireRange (l : Loc) : Op Unit := Op.require l.inRange .badBusAddr

/-- `SRD a` (40 R101). -/
def execSrd (a : BitVec 8) (s : State) : Outcome :=
  runMain (.srd a) (do requireRange (shortLoc a); let v ← mainRead (shortLoc a); pure (.byte v)) s

/-- `SWR a, v` (40 R102). -/
def execSwr (a : BitVec 8) (v : Byte) (s : State) : Outcome :=
  runMain (.swr a v) (do requireRange (shortLoc a); mainWrite (shortLoc a) v; pure .none) s

/-- `LRD a` (40 R103). -/
def execLrd (a : BusAddr) (s : State) : Outcome :=
  runMain (.lrd a) (do requireRange (longLoc a); let v ← mainRead (longLoc a); pure (.byte v)) s

/-- `LWR a, v` (40 R104). -/
def execLwr (a : BusAddr) (v : Byte) (s : State) : Outcome :=
  runMain (.lwr a v) (do requireRange (longLoc a); mainWrite (longLoc a) v; pure .none) s

end Sys2Proof.Machine
end

