-- ==== Sys2Proof/Machine/RadioDriver.lean ====
section
/-! DEFINITION. Machine/RadioDriver.lean: the driver's operations (spec/41_radio_driver.md R110 to R131), each as its rule's
pseudocode lists its elementary steps. -/

namespace Sys2Proof.Machine

/-! ## Reset and initialisation -/

/-- Drive `rst_n`; while it is low the transceiver is reset (10 R35, 41 R111). -/
def driveRst (level : Bool) (s : State) : State :=
  let s' := (s.setRstN level).pushPin (.rst level)
  if level then s' else s'.setEnv s'.env.chipReset

/-- `reset` (41 R111): the reset pulse with its two settle delays, then COLD. -/
def opReset : Op Value := do
  let p ← Op.view (·.par)
  mainUpdate (driveRst false)
  mainWait p.tResetLow
  mainUpdate (driveRst true)
  mainWait p.tResetHigh
  mainUpdate (·.setDrv .cold)
  pure .none

/-- `reset`, the instruction. -/
def execReset (s : State) : Outcome := runMain .reset opReset s

/-- A hardware fault of class (a): FAULTED, and the operation ends with the code (60 R192). -/
def hwFault {α : Type} (c : Code) : Op α := do
  mainUpdate (·.setDrv .faulted)
  Op.raise c

/-- Phase 6 of `initialize` when an extended address is known: eight writes (41 R130). -/
def writeEadr (base : Loc) : Nat → List Byte → Op Unit
  | _, [] => pure ()
  | i, b :: bs => do
    mainWrite (locPlus base i) b
    writeEadr base (i + 1) bs

/-- Phase 6 of `initialize` when none is known: eight reads into `cfg.eadr` (41 R130). -/
def readEadr (base : Loc) : List (Fin 8) → Op Unit
  | [] => pure ()
  | i :: is => do
    let v ← mainRead (locPlus base i.val)
    mainUpdate fun s => s.setCfg { s.cfg with eadr := s.cfg.eadr.set i v }
    readEadr base is

/-- `load_extended_address()` (41 R130). -/
def loadExtendedAddress (base : Loc) : Op Unit := do
  let c ← Op.view (·.cfg)
  (if c.eadrValid then writeEadr base 0 c.eadr.toList
   else do
    readEadr base [0, 1, 2, 3, 4, 5, 6, 7]
    mainUpdate fun s => s.setCfg { s.cfg with eadrValid := true })

/-- `CAL_SEQ` (41 R113): plain writes in list order. -/
def writeCal : List (Loc × Byte) → Op Unit
  | [] => pure ()
  | (l, v) :: rest => do
    mainWrite l v
    writeCal rest

/-- The channel register and the RF reset pulse (41 R115, R112 line 10). -/
def tuneChannel (r : RegMap) (n : Byte) : Op Unit := do
  mainWrite r.channel (channelValue n)
  mainWrite r.rfctl r.vRfrstSet
  mainWrite r.rfctl r.vRfrstClr
  mainUpdate fun s => s.setCfg { s.cfg with channel := n }

/-- Line 0 of 41 R112, after admission: COLD, and the two flag shadows cleared. That the three assignments are one
elementary step is a DESIGN CHOICE: notes/assumptions/29.md. -/
def initBegin (s : State) : State :=
  (s.setDrv .cold).setCfg { s.cfg with promiscuous := false, panController := false }

/-- Lines 3 to 7 of 41 R112: flush, inert addresses, extended address, calibration. -/
def initConfigure (p : Params) : Op Unit := do
  mainWrite p.reg.rxflush p.reg.vRxflush
  wrPair p.reg.sadrl p.reg.sadrh 0xFFFF
  mainUpdate fun s => s.setCfg { s.cfg with short := 0xFFFF }
  wrPair p.reg.panl p.reg.panh 0xFFFF
  mainUpdate fun s => s.setCfg { s.cfg with pan := 0xFFFF }
  loadExtendedAddress p.reg.eadr0
  writeCal p.calSeq

/-- Lines 9 to 11 of 41 R112: interrupt enable, default channel, READY. -/
def initComplete (p : Params) : Op Unit := do
  mainWrite p.reg.intcon p.reg.vIntcon
  tuneChannel p.reg p.defaultChannel
  mainUpdate (·.setDrv .ready)

/-- `initialize` (41 R112). -/
def opInit : Op Value := do
  let d ← Op.view (·.drv)
  Op.require (decide (d ≠ .faulted)) .notReady
  let p ← Op.view (·.par)
  mainUpdate initBegin
  mainWrite p.reg.softrst p.reg.vSoftrst
  let done ← pollUntil p.reg.softrst p.reg.mSoftrst 0 p.maxPoll
  (if done then do
    initConfigure p
    let up ← pollUntil p.reg.rfstate p.reg.mRxready p.reg.vRxready p.maxPoll
    (if up then do
      initComplete p
      pure .none
     else hwFault .hwRxreadyTimeout)
   else hwFault .hwSoftresetTimeout)

/-- `initialize`, the instruction. -/
def execInit (s : State) : Outcome := runMain .init opInit s

/-! ## Configuration -/

/-- `set_channel n` (41 R115). -/
def execSetChannel (n : Byte) (s : State) : Outcome :=
  runMain (.setChannel n) (do
    requireReady
    Op.require (channelOk n) .badChannel
    let p ← Op.view (·.par)
    tuneChannel p.reg n
    pure .none) s

/-- `set_pan id` (41 R116). -/
def execSetPan (id : Half) (s : State) : Outcome :=
  runMain (.setPan id) (do
    requireReady
    let p ← Op.view (·.par)
    wrPair p.reg.panl p.reg.panh id
    mainUpdate fun s => s.setCfg { s.cfg with pan := id }
    pure .none) s

/-- `get_pan` (41 R117): two reads; `cfg.pan` is not refreshed. -/
def execGetPan (s : State) : Outcome :=
  runMain .getPan (do
    requireReady
    let p ← Op.view (·.par)
    let v ← rdPair p.reg.panl p.reg.panh
    pure (.half v)) s

/-- `set_short_address a` (41 R118). -/
def execSetShortAddress (a : Half) (s : State) : Outcome :=
  runMain (.setShortAddress a) (do
    requireReady
    let p ← Op.view (·.par)
    wrPair p.reg.sadrl p.reg.sadrh a
    mainUpdate fun s => s.setCfg { s.cfg with short := a }
    pure .none) s

/-- `get_short_address` (41 R119). -/
def execGetShortAddress (s : State) : Outcome :=
  runMain .getShortAddress (do
    requireReady
    let p ← Op.view (·.par)
    let v ← rdPair p.reg.sadrl p.reg.sadrh
    pure (.half v)) s

/-- `set_promiscuous b` (41 R120): read-modify-write of one bit. -/
def execSetPromiscuous (b : Bool) (s : State) : Outcome :=
  runMain (.setPromiscuous b) (do
    requireReady
    let p ← Op.view (·.par)
    let t ← mainRead p.reg.rxmcr
    mainWrite p.reg.rxmcr (bitPut t p.reg.bPromi b)
    mainUpdate fun s => s.setCfg { s.cfg with promiscuous := b }
    pure .none) s

/-- What `set_pan_controller(true)` does besides the controller bit: unslotted CSMA and both orders off (41 R121). -/
def unslot (r : RegMap) : Op Unit := do
  let u ← mainRead r.txmcr
  mainWrite r.txmcr (bitClear u r.bSlotted)
  mainWrite r.order r.vOrderOff

/-- `set_pan_controller b` (41 R121). -/
def execSetPanController (b : Bool) (s : State) : Outcome :=
  runMain (.setPanController b) (do
    requireReady
    let p ← Op.view (·.par)
    let t ← mainRead p.reg.rxmcr
    mainWrite p.reg.rxmcr (bitPut t p.reg.bPancoord b)
    (if b then unslot p.reg else pure ())
    mainUpdate fun s => s.setCfg { s.cfg with panController := b }
    pure .none) s

/-- `rx_disable` (41 R122). -/
def execRxDisable (s : State) : Outcome :=
  runMain .rxDisable (do
    requireReady
    let p ← Op.view (·.par)
    mainWrite p.reg.rxctl p.reg.vRxdis
    pure .none) s

/-- `rx_enable` (41 R123). -/
def execRxEnable (s : State) : Outcome :=
  runMain .rxEnable (do
    requireReady
    let p ← Op.view (·.par)
    mainWrite p.reg.rxctl p.reg.vRxen
    pure .none) s

/-! ## Transmission -/

/-- The FIFO bytes 0 to 6 of a frame and the advance of `tx_seq` (41 R125, R127): the lengths, FrameControl, the sequence
number before its increment, the PAN id. -/
def writeHeader (b : Loc) (hdr len : Nat) (fcf : Half) : Op Unit := do
  wrFifo b 0 (txPrefix hdr len fcf)
  let q ← Op.view (·.txSeq)
  wrFifo b 4 [q]
  mainUpdate fun s => s.setTxSeq (inc8 s.txSeq)
  let c ← Op.view (·.cfg)
  wrFifo b 5 (leBytes c.pan)

/-- The critical section of `send` after the destination test (41 R125): the image and the trigger. The destination is the
live source of the RX record. -/
def writeFrame (p : Params) (h : HdrShape) (fcf : Half) (payload : List Byte) : Op Unit := do
  let b := p.reg.txfifo
  writeHeader b (hdrLen h) payload.length fcf
  let r ← Op.view (·.rxRec)
  wrFifo b 7 (r.src.take h.dl)
  let c ← Op.view (·.cfg)
  wrFifo b (7 + h.dl) (srcAddr c h.sl)
  wrFifo b (2 + hdrLen h) payload
  mainWrite p.reg.txncon p.reg.vTxtrig
  elem unmaskIrq

/-- The destination test of 41 R125: a destination is wanted and the record holds none of that length. -/
def noDest (r : RxRec) (dl : Nat) : Bool := decide (dl ≠ 0) && (!r.valid || decide (r.srcLen ≠ dl))

/-- The masked part of `send` (41 R125): mask, test the destination, write the frame, unmask. -/
def sendMasked (p : Params) (h : HdrShape) (fcf : Half) (payload : List Byte) : Op Unit := do
  elem maskIrq
  let r ← Op.view (·.rxRec)
  (if noDest r h.dl then do
    elem unmaskIrq
    Op.raise .noDest
   else writeFrame p h fcf payload)

/-- `send fcf, payload` (41 R125), with the tests in the order of 60 R197. -/
def opSend (fcf : Half) (payload : List Byte) : Op Unit := do
  requireReady
  let p ← Op.view (·.par)
  match hdrShape fcf with
  | none => Op.raise .badAddrMode
  | some h => do
    Op.require (lengthOk (hdrLen h) payload.length) .badLength
    sendMasked p h fcf payload

/-- `send`, the instruction. -/
def execSend (fcf : Half) (payload : List Byte) (s : State) : Outcome :=
  runMain (.send fcf payload) (do opSend fcf payload; pure .none) s

/-- `send16_ack dest, payload` (41 R127). -/
def opSend16Ack (dest : Half) (payload : List Byte) : Op Unit := do
  requireReady
  Op.require (decide (payload.length ≤ Config.maxPayload)) .badLength
  let p ← Op.view (·.par)
  elem maskIrq
  writeHeader p.reg.txfifo hdrSend16 payload.length fcfSend16
  wrFifo p.reg.txfifo 7 (leBytes dest)
  let c ← Op.view (·.cfg)
  wrFifo p.reg.txfifo 9 (leBytes c.short)
  wrFifo p.reg.txfifo 11 payload
  mainWrite p.reg.txncon p.reg.vTxtrigAck
  elem unmaskIrq

/-- `send16_ack`, the instruction. -/
def execSend16Ack (dest : Half) (payload : List Byte) (s : State) : Outcome :=
  runMain (.send16Ack dest payload) (do opSend16Ack dest payload; pure .none) s

/-! ## Record accessors -/

/-- What `get_rx_record` returns (41 R128). -/
def rxRecordValue (r : RxRec) : Value := .rxRecord (if r.valid then some r else none)

/-- What `get_tx_record` returns (41 R129). -/
def txRecordValue (r : TxRec) : Value := .txRecord (if r.valid then some (r.success, r.retries, r.channelBusy) else none)

/-- `get_rx_record` (41 R128): a copy taken in one step. -/
def execGetRxRecord (s : State) : Outcome :=
  runMain .getRxRecord (do let r ← elem (Op.view (·.rxRec)); pure (rxRecordValue r)) s

/-- `get_tx_record` (41 R129): a copy taken in one step. -/
def execGetTxRecord (s : State) : Outcome :=
  runMain .getTxRecord (do let r ← elem (Op.view (·.txRec)); pure (txRecordValue r)) s

end Sys2Proof.Machine
end

