-- ==== Sys2Proof/Machine/ProtocolDecoder.lean ====
section
/-! DEFINITION. Machine/ProtocolDecoder.lean: the device-state machine (spec/43_protocol_decoder.md R160 to R178): the RX
handler and the decoder's actions. An action works on the decoder's locals `dec` (the snapshot and the pre-mutation values
of 43 R161): first the table mutation, then the reply, then the forward (43 R162). -/

namespace Sys2Proof.Machine

/-- `next_ls()` (43 R174): the value before the increment. That reading and incrementing are one elementary step is a DESIGN
CHOICE: notes/assumptions/29.md. -/
def nextLs : Op Byte := elem (do
  let v ← Op.view (·.localSeq)
  Op.update (·.setLocalSeq (inc8 v))
  pure v)

/-- `reply(f, body)` (43 R173): hand the frame to `send`; a refusal is reported as an event. -/
def opReply (fcf : Half) (body : List Byte) : Op Unit := do
  let c ← Op.attempt (opSend fcf body)
  (if c = .ok then pure () else mainEmit (.replyRefused c))

/-- Change the source's record, if it has one (43 R172). DESIGN CHOICE: a mutation that is skipped (`slot = none`) still is
one elementary step, at which `k` advances and an interrupt run may start (notes/assumptions/29.md). -/
def mutateDev (f : DeviceRecord → DeviceRecord) : Op Unit :=
  mainUpdate fun s => s.setDev (updateSlot s.dev s.dec.slot f)

/-- `emit Forward` of the snapshot's whole payload (43 R176). -/
def forwardFrame (tag : Tag) : Op Unit := do
  let d ← Op.view (·.dec)
  mainEmit (.forward d.r.src d.r.payload tag)

/-- `M07` (43 R164). -/
def opM07 (p1 : Byte) : Op Unit := do
  mutateDev fun d => { d with online := false }
  let p ← Op.view (·.par)
  opReply (fcfReplyM07 p) (bodyM07 p1)

/-- `M01A` (43 R165). -/
def opM01A : Op Unit := do
  mutateDev fun d => { d with online := false }
  opReply fcfReplyAck bodyM01A

/-- `M13` (43 R166). That `online` and `sequence` change in one elementary step is a DESIGN CHOICE:
notes/assumptions/29.md. -/
def opM13 (p1 : Byte) : Op Unit := do
  mutateDev fun d => { d with online := true, sequence := p1 }
  let ls ← nextLs
  opReply fcfReplyAck (bodyM13 ls p1)

/-- `M08` (43 R167). -/
def opM08 (p2 : Byte) : Op Unit := do
  mutateDev fun d => { d with online := true }
  let ls ← nextLs
  let d ← Op.view (·.dec)
  opReply fcfReplyNoack (bodyM08 (contFlag p2) ls d.ss)

/-- `M01D` (43 R168). That `online` and `sequence` change in one elementary step is a DESIGN CHOICE:
notes/assumptions/29.md. -/
def opM01D (p1 p2 : Byte) : Op Unit := do
  mutateDev fun d => { d with online := true, sequence := p1 }
  let ls ← nextLs
  opReply fcfReplyNoack (bodyM01D (contFlag p2) ls p1)
  forwardFrame .data

/-- `M02` (43 R169). -/
def opM02 (p2 : Byte) : Op Unit := do
  mutateDev fun d => { d with online := true }
  let ls ← nextLs
  let d ← Op.view (·.dec)
  opReply fcfReplyNoack (bodyM02 (contFlag p2) ls d.ss)
  forwardFrame .data

/-- `M0A` (43 R170). -/
def opM0A (p1 : Byte) : Op Unit := mutateDev fun d => { d with sequence := p1 }

/-- `MXX` (43 R171). -/
def opMXX : Op Unit := forwardFrame .unknown

/-- `MALFORMED` (43 R163, R180): forwarded only if the configuration asks for it. -/
def opMalformed : Op Unit := do
  let p ← Op.view (·.par)
  (if p.forwardMalformed then forwardFrame .unknown else pure ())

/-- Run a decoder action (43 R162). The dispatch answers decoder actions only (`decodeMsg`), so nothing else runs here. -/
def runAction : Instr → Op Unit
  | .m07 p1 => opM07 p1
  | .m01a => opM01A
  | .m13 p1 => opM13 p1
  | .m08 p2 => opM08 p2
  | .m01d p1 p2 => opM01D p1 p2
  | .m02 p2 => opM02 p2
  | .m0a p1 => opM0A p1
  | .mxx _ => opMXX
  | .malformed => opMalformed
  | _ => pure ()

/-- `ON_RECEIVE` (43 R161): the snapshot in one step, the lookup, the dispatch. -/
def opOnReceive : Op Unit := do
  mainUpdate fun s => s.setDec (decCtx s.par s.dev s.rxRec)
  let d ← Op.view (·.dec)
  runAction (actionOf d)

/-- `ON_RECEIVE`, the handler (42 R148). -/
def execOnReceive (s : State) : Outcome := runMain .onReceive (do opOnReceive; pure .none) s

/-- `M07`, the action. -/
def execM07 (p1 : Byte) (s : State) : Outcome := runMain (.m07 p1) (do opM07 p1; pure .none) s

/-- `M01A`, the action. -/
def execM01A (s : State) : Outcome := runMain .m01a (do opM01A; pure .none) s

/-- `M13`, the action. -/
def execM13 (p1 : Byte) (s : State) : Outcome := runMain (.m13 p1) (do opM13 p1; pure .none) s

/-- `M08`, the action. -/
def execM08 (p2 : Byte) (s : State) : Outcome := runMain (.m08 p2) (do opM08 p2; pure .none) s

/-- `M01D`, the action. -/
def execM01D (p1 p2 : Byte) (s : State) : Outcome := runMain (.m01d p1 p2) (do opM01D p1 p2; pure .none) s

/-- `M02`, the action. -/
def execM02 (p2 : Byte) (s : State) : Outcome := runMain (.m02 p2) (do opM02 p2; pure .none) s

/-- `M0A`, the action. -/
def execM0A (p1 : Byte) (s : State) : Outcome := runMain (.m0a p1) (do opM0A p1; pure .none) s

/-- `MXX`, the action. -/
def execMXX (t : Byte) (s : State) : Outcome := runMain (.mxx t) (do opMXX; pure .none) s

/-- `MALFORMED`, the outcome. -/
def execMalformed (s : State) : Outcome := runMain .malformed (do opMalformed; pure .none) s

end Sys2Proof.Machine
end

