-- ==== Sys2Proof/Machine/EventPump.lean ====
section
/-! DEFINITION. Machine/EventPump.lean: the bottom half (spec/42_interrupt_bridge.md R146 to R149): `poll` and the TX handler. -/

namespace Sys2Proof.Machine

/-- `ON_TX_COMPLETE` (42 R149): one look at the record, one event. -/
def opOnTxComplete : Op Unit := do
  let c ← elem (Op.view (·.txRec))
  mainEmit (.txReport c.success c.retries c.channelBusy)

/-- `ON_TX_COMPLETE`, the handler. -/
def execOnTxComplete (s : State) : Outcome := runMain .onTxComplete (do opOnTxComplete; pure .none) s

/-- The test and clear of `rx_event`, one indivisible step (42 R146). -/
def testClearRx : Op Bool := elem (do
  let c ← Op.view (·.rxEvent)
  Op.update (·.setRxEvent 0)
  pure (eventPending c))

/-- The test and clear of `tx_event`, one indivisible step (42 R146). -/
def testClearTx : Op Bool := elem (do
  let c ← Op.view (·.txEvent)
  Op.update (·.setTxEvent 0)
  pure (eventPending c))

/-- `poll` (42 R146): RX first, then TX; each handler at most once. -/
def opPoll : Op Unit := do
  let r ← testClearRx
  (if r then opOnReceive else pure ())
  let t ← testClearTx
  (if t then opOnTxComplete else pure ())

/-- `poll`, the instruction. -/
def execPoll (s : State) : Outcome := runMain .poll (do opPoll; pure .none) s

end Sys2Proof.Machine
end

