-- ==== Sys2Proof/Machine/Dispatch.lean ====
section
/-! DEFINITION. Machine/Dispatch.lean: one arm per row of the operation map. -/

namespace Sys2Proof.Machine

def exec (i : Instr) (s : State) : Host.Outcome State Fault Refusal :=
  match i with
  | .srd a => Sys2Proof.Machine.execSrd a s
  | .swr a v => Sys2Proof.Machine.execSwr a v s
  | .lrd a => Sys2Proof.Machine.execLrd a s
  | .lwr a v => Sys2Proof.Machine.execLwr a v s
  | .reset => Sys2Proof.Machine.execReset s
  | .init => Sys2Proof.Machine.execInit s
  | .setChannel n => Sys2Proof.Machine.execSetChannel n s
  | .setPan v => Sys2Proof.Machine.execSetPan v s
  | .getPan => Sys2Proof.Machine.execGetPan s
  | .setShortAddress a => Sys2Proof.Machine.execSetShortAddress a s
  | .getShortAddress => Sys2Proof.Machine.execGetShortAddress s
  | .setPromiscuous b => Sys2Proof.Machine.execSetPromiscuous b s
  | .setPanController b => Sys2Proof.Machine.execSetPanController b s
  | .rxDisable => Sys2Proof.Machine.execRxDisable s
  | .rxEnable => Sys2Proof.Machine.execRxEnable s
  | .send fcf payload => Sys2Proof.Machine.execSend fcf payload s
  | .send16Ack dest payload => Sys2Proof.Machine.execSend16Ack dest payload s
  | .poll => Sys2Proof.Machine.execPoll s
  | .getRxRecord => Sys2Proof.Machine.execGetRxRecord s
  | .getTxRecord => Sys2Proof.Machine.execGetTxRecord s
  | .irq => Sys2Proof.Machine.execIrq s
  | .rxpath => Sys2Proof.Machine.execRxpath s
  | .txpath => Sys2Proof.Machine.execTxpath s
  | .onReceive => Sys2Proof.Machine.execOnReceive s
  | .onTxComplete => Sys2Proof.Machine.execOnTxComplete s
  | .m07 p1 => Sys2Proof.Machine.execM07 p1 s
  | .m01a => Sys2Proof.Machine.execM01A s
  | .m13 p1 => Sys2Proof.Machine.execM13 p1 s
  | .m08 p2 => Sys2Proof.Machine.execM08 p2 s
  | .m01d p1 p2 => Sys2Proof.Machine.execM01D p1 p2 s
  | .m02 p2 => Sys2Proof.Machine.execM02 p2 s
  | .m0a p1 => Sys2Proof.Machine.execM0A p1 s
  | .mxx t => Sys2Proof.Machine.execMXX t s
  | .malformed => Sys2Proof.Machine.execMalformed s

end Sys2Proof.Machine
end

