-- ==== Sys2Proof/Machine/Fetch.lean ====
section
/-! DEFINITION. Machine/Fetch.lean: which operation runs next, and how an opcode-table word is placed where the machine finds
it. The block fetches no instructions (10 R24, 20 R64): the main context takes the operation its control state names, or the
host's next command (30 R87); the interrupt context takes `IRQ` under the entry condition (42 R140). -/

namespace Sys2Proof.Machine

/-- A host command that is none: refused with `E_BAD_COMMAND` before anything else (60 R197). -/
def badCommand (s : State) : State := s.setResult ⟨.badCommand, .none⟩

/-- The host issues a command, the bytes `bytes` (70 R224 (1)). -/
def takeCommand (bytes : List Byte) (s : State) : Outcome :=
  match decodeHost bytes with
  | .ok i => exec i s
  | .error _ => .next (badCommand s)

/-- The main context's turn: the operation it has been given, else the host's next command, else it stays idle (70 R220:
"the block waits for a host command"). -/
def mainTurn (s : State) : Outcome :=
  match s.mainCtl with
  | .running i 0 => exec i (s.setMainCtl .idle)
  | .running i (k + 1) => .fault (.midOperation i (k + 1))
  | .idle =>
    match s.hostq with
    | [] => .next s
    | bytes :: rest => takeCommand bytes (s.setHostq rest)

/-- One turn while both contexts are between operations: the next act of the agenda, or the main context's turn. With the
agenda exhausted and the entry condition true, each turn draws anew whether a run starts first (42 R140), so that a run that
does not start now can start at a later turn. -/
def idleTurn (s : State) : Outcome :=
  match s.env.agenda with
  | .proceed :: as => mainTurn (s.setAgenda as)
  | .env m :: as => .next ((s.setAgenda as).envMove m)
  | .startIrq :: as => if entryCond s then exec .irq (s.setAgenda as) else .next (s.setAgenda as)
  | [] =>
    if entryCond s then
      if Config.freePreempt s.env.draws then exec .irq s.bumpDraws else mainTurn s.bumpDraws
    else mainTurn s

/-- Which context steps: an interrupt sequence that has been selected, else the idle turn. -/
def turn (s : State) : Outcome :=
  match s.irqCtl with
  | .running i 0 => exec i (s.setIrqCtl .idle)
  | .running i (k + 1) => .fault (.midOperation i (k + 1))
  | .idle => idleTurn s

/-- A snapshot whose payload is the given bytes, everything else of the decoder's locals unchanged. -/
def decWithPayload (d : DecCtx) (bytes : List Byte) : DecCtx :=
  { d with r := { d.r with payload := bytes, payloadLen := bytes.length } }

/-- `s` with the main context at its next turn: no operation of either context under way, and the agenda lets the main
context take its next step. -/
def readyToFetch (s : State) : State := ((s.setMainCtl .idle).setIrqCtl .idle).setAgenda (.proceed :: s.env.agenda)

/-- Place an opcode-table word where the next step takes its operation from: a command code in front of the host's queue; a
bus transaction or a message type as the operation the main context has been given (RUNNING(op, 0)), a message with its
bytes as the snapshot's payload. A word that is no operation stands in the queue as the bytes it is. -/
def placeWord (s : State) (nbits w : Nat) : State :=
  match nbits with
  | 8 =>
    match decodeHost (hostFrame w) with
    | .ok _ => (readyToFetch s).setHostq (hostFrame w :: s.hostq)
    | .error _ =>
      ((readyToFetch s).setDec (decWithPayload s.dec (msgPayload w))).setMainCtl
        (.running (decodeMsg false (msgPayload w)) 0)
  | _ =>
    match decodeTableWord nbits w with
    | some i => (readyToFetch s).setMainCtl (.running i 0)
    | none => (readyToFetch s).setHostq ([] :: s.hostq)

end Sys2Proof.Machine
end

