-- ==== Sys2Proof/Machine/Step.lean ====
section
/-! DEFINITION. Machine/Step.lean: one step of the machine, and the placing of a word for the next step. -/

namespace Sys2Proof.Machine

/-- One step (notes/assumptions/1.md): one act of the environment, one interrupt run, or one operation of the main context
with the interrupt runs that preempt it. -/
def step (s : State) : Host.Outcome State Fault Refusal := turn s

/-- The state in which the next step runs the instruction of an opcode-table word (notes/assumptions/15.md). -/
def State.withFetchWord (s : State) (nbits w : Nat) : State := placeWord s nbits w

end Sys2Proof.Machine
end

