-- ==== Sys2Proof/Safety.lean ====
section
/-! DEFINITION. Safety.lean: the terms the statements are made in: in which situation an operation runs alone, what a
sequence of transactions leaves, what the rules of the spec make of a state (one pure expression per effect), which fields
a row may touch, and the invariant of the machine (spec/10_state.md R37). -/

namespace Sys2Proof.Machine

/-! ## Situations -/

/-- Nothing but the main context will move: the agenda is empty, the interrupt line is low, the bus will not stick, and no
cause is pending that an operation could enable. -/
abbrev Quiet (s : State) : Prop :=
  s.env.agenda = [] ∧ s.env.irqLine = false ∧ s.env.stuckAfter = none ∧ s.env.pending = 0

/-- The main context is idle (10 R24, 41 R110), nothing else will move, the configuration satisfies its constraints. -/
abbrev AtRest (s : State) : Prop := Quiet s ∧ s.mainCtl = .idle ∧ s.par.wf = true

/-- At rest, and the driver admits every operation (41 R110). -/
abbrev InService (s : State) : Prop := AtRest s ∧ s.drv = .ready

/-- The main context takes its very next elementary step, whatever the causes and the line are. -/
abbrev NextStep (s : State) : Prop :=
  s.mainCtl = .idle ∧ s.env.agenda = [.proceed] ∧ s.env.stuckAfter = none ∧ s.par.wf = true

/-- The entry condition of an interrupt run (42 R140), at a point between two steps of the main context. -/
abbrev EntryHolds (s : State) : Prop :=
  s.env.irqLine = true ∧ s.irqMask = false ∧ s.irqActive = false ∧ s.irqCtl = .idle

/-- The interrupt context can run alone: no run under way, the environment does not move, the bus will not stick. -/
abbrev RunReady (s : State) : Prop :=
  s.irqCtl = .idle ∧ s.env.runMoves = [] ∧ s.env.stuckAfter = none ∧ s.par.wf = true

/-- A move that makes the bus stick (20 R68). -/
def EnvMove.isStick : EnvMove → Bool
  | .stick _ => true
  | _ => false

/-- An act that makes the bus stick. -/
def Act.isStick : Act → Bool
  | .env m => m.isStick
  | _ => false

/-- No transaction will be answered `stuck`. -/
abbrev NeverSticks (s : State) : Prop :=
  s.env.stuckAfter = none ∧ (s.env.agenda.all fun a => !a.isStick) = true ∧
    (s.env.runMoves.all fun ms => ms.all fun m => !m.isStick) = true

/-- A location whose writes only store the byte, as far as memory is concerned: neither the soft reset nor the flush (20
R57). -/
abbrev PlainLoc (r : RegMap) (l : Loc) : Prop := l ≠ r.softrst ∧ l ≠ r.rxflush

/-- A state of quiescence (70 R240). After overlapping transmissions (70 R230) `txInFlight` is the model's choice
(notes/assumptions/31.md). -/
abbrev Quiescent (s : State) : Prop :=
  s.mainCtl = .idle ∧ s.irqCtl = .idle ∧ s.env.irqLine = false ∧ s.rxEvent = 0 ∧ s.txEvent = 0 ∧ s.env.txInFlight = false

/-- What a write of `v` to `l` makes of the transceiver (20 R57, R66, 10 R32, R34): the bytes of a plain location and of the
others, and the effect of each role that the location has. -/
abbrev WriteEffects (r : RegMap) (l : Loc) (v : Byte) (e e' : Env) : Prop :=
  (PlainLoc r l → e'.peek l = some v ∧ ∀ l', l' ≠ l → e'.peek l' = e.peek l') ∧
  (l = r.softrst → ∀ l', e'.peek l' = none) ∧
  (l = r.rxflush → ∀ k, k < 130 → e'.peek (locPlus r.rxfifo k) = none) ∧
  (l = r.txncon → v = r.vTxtrig ∨ v = r.vTxtrigAck → e'.txInFlight = true) ∧
  (l ≠ r.txncon → e'.txInFlight = e.txInFlight) ∧
  (l = r.rxctl → (v = r.vRxdis → e'.rxEnabled = false) ∧ (v = r.vRxen → r.vRxen ≠ r.vRxdis → e'.rxEnabled = true)) ∧
  (l = r.rfctl → (v = r.vRfrstSet → e'.rfReset = true) ∧
    (v = r.vRfrstClr → r.vRfrstClr ≠ r.vRfrstSet → e'.rfReset = false)) ∧
  (l = r.intcon → v = r.vIntcon →
    (∀ k : Fin 8, e'.enabled.getLsbD k.val = (decide (k = r.bRxif) || decide (k = r.bTxif))) ∧
    e'.irqLine = (e.pending.getLsbD r.bRxif.val || e.pending.getLsbD r.bTxif.val)) ∧
  (l = r.channel → e'.tuned = v) ∧
  e'.pending = e.pending

/-! ## Sequences of transactions -/

/-- The state after a list of write transactions, in order. -/
def State.writes (c : Ctx) : List (Loc × Byte) → State → State
  | [], s => s
  | (l, v) :: rest, s => State.writes c rest (s.afterBusWrite c l v)

/-- The bytes a list of read transactions returns, in order, and the state after them. -/
def State.reads (c : Ctx) : List Loc → State → List Byte × State
  | [], s => ([], s)
  | l :: ls, s =>
    ((s.env.read s.par.reg l).1 :: (State.reads c ls (s.afterBusRead c l)).1, (State.reads c ls (s.afterBusRead c l)).2)

/-- At most `k` reads of one location, up to the first that matches (41 R114): whether one matched, and the state then. -/
def State.polls (l : Loc) (m v : Byte) : Nat → State → Bool × State
  | 0, s => (false, s)
  | k + 1, s =>
    if (s.env.read s.par.reg l).1 &&& m = v then (true, s.afterBusRead .main l)
    else State.polls l m v k (s.afterBusRead .main l)

/-- The writes that put bytes at consecutive addresses from `base + off` on. -/
def fifoAt (base : Loc) : Nat → List Byte → List (Loc × Byte)
  | _, [] => []
  | off, b :: bs => (locPlus base off, b) :: fifoAt base (off + 1) bs

/-- The locations at `n` consecutive addresses from `base + off` on. -/
def locsAt (base : Loc) : Nat → Nat → List Loc
  | _, 0 => []
  | off, n + 1 => locPlus base off :: locsAt base (off + 1) n

/-- A write pair, low byte first (30 R89). -/
def pairAt (lo hi : Loc) (v : Half) : List (Loc × Byte) := [(lo, v.lo), (hi, v.hi)]

/-! ## What the rules make of a state -/

/-- The lengths, sequence number and PAN id at the head of a TX image (30 R76). -/
def txHead (s : State) (hdr len : Nat) (fcf : Half) : List Byte :=
  [countByte hdr, countByte (hdr + len), fcf.lo, fcf.hi, s.txSeq, s.cfg.pan.lo, s.cfg.pan.hi]

/-- The TX image of `send` (30 R76). -/
def txImage (s : State) (h : HdrShape) (fcf : Half) (payload : List Byte) : List Byte :=
  txHead s (hdrLen h) payload.length fcf ++ s.rxRec.src.take h.dl ++ srcAddr s.cfg h.sl ++ payload

/-- The TX image of `send16_ack` (41 R127). -/
def txImage16 (s : State) (dest : Half) (payload : List Byte) : List Byte :=
  txHead s 9 payload.length 0x8861 ++ leBytes dest ++ leBytes s.cfg.short ++ payload

/-- A frame handed to the transceiver: the image at `A_TXFIFO`, the trigger, `tx_seq` advanced, the mask off again. -/
def State.transmitted (s : State) (image : List Byte) (trigger : Byte) : State :=
  ((s.writes .main (fifoAt s.par.reg.txfifo 0 image ++ [(s.par.reg.txncon, trigger)])).setTxSeq (s.txSeq + 1)).setIrqMask
    false

/-- A `send` that is not refused (41 R125). -/
def State.sent (s : State) (h : HdrShape) (fcf : Half) (payload : List Byte) : State :=
  s.transmitted (txImage s h fcf payload) s.par.reg.vTxtrig

/-- A reply handed to `send` (43 R173), with the two refusals it can meet. -/
def State.replied (s : State) (fcf : Half) (body : List Byte) : State :=
  if s.drv ≠ .ready then s.emit (.replyRefused .notReady)
  else if s.rxRec.valid = false ∨ s.rxRec.srcLen ≠ 8 then (s.setIrqMask false).emit (.replyRefused .noDest)
  else s.sent ⟨8, 8⟩ fcf body

/-- The source's record changed, if it has one (43 R172). -/
def State.withDevice (s : State) (f : DeviceRecord → DeviceRecord) : State := s.setDev (updateSlot s.dev s.dec.slot f)

/-- The forward of the snapshot's whole payload (43 R176). -/
def State.forwarded (s : State) (tag : Tag) : State := s.emit (.forward s.dec.r.src s.dec.r.payload tag)

/-- The bytes of an extended address, index 0 first. -/
def identOf (bytes : List Byte) : Ident := Vector.ofFn fun i => bytes.getD i.val 0

/-- Phase 6 of `initialize` (41 R130): the known extended address written, or an unknown one read. -/
def State.addressLoaded (s : State) : State :=
  if s.cfg.eadrValid then s.writes .main (fifoAt s.par.reg.eadr0 0 s.cfg.eadr.toList)
  else (s.reads .main (locsAt s.par.reg.eadr0 0 8)).2.setCfg
    { s.cfg with eadr := identOf (s.reads .main (locsAt s.par.reg.eadr0 0 8)).1, eadrValid := true }

/-- Phases 3 to 7 of `initialize` (41 R112, R124, R130, R113). -/
def State.configured (s : State) : State :=
  ((s.writes .main ([(s.par.reg.rxflush, s.par.reg.vRxflush)] ++ pairAt s.par.reg.sadrl s.par.reg.sadrh 0xFFFF ++
    pairAt s.par.reg.panl s.par.reg.panh 0xFFFF)).setCfg { s.cfg with short := 0xFFFF, pan := 0xFFFF }).addressLoaded.writes
      .main s.par.calSeq

/-- The writes that tune to a channel (41 R115). -/
def tuneWrites (r : RegMap) (n : Byte) : List (Loc × Byte) :=
  [(r.channel, channelValue n), (r.rfctl, r.vRfrstSet), (r.rfctl, r.vRfrstClr)]

/-- `initialize` up to the end of its soft-reset poll (41 R112 lines 0 to 2). -/
def State.softReset (s : State) : Bool × State :=
  (initBegin (s.afterBusWrite .main s.par.reg.softrst s.par.reg.vSoftrst)).polls s.par.reg.softrst s.par.reg.mSoftrst 0
    s.par.maxPoll

/-- `initialize` from there to the end of its ready poll (lines 3 to 8). -/
def State.calibrated (s : State) : Bool × State :=
  s.softReset.2.configured.polls s.par.reg.rfstate s.par.reg.mRxready s.par.reg.vRxready s.par.maxPoll

/-- `initialize` that succeeds (lines 9 to 11). -/
def State.initialized (s : State) : State :=
  let t := s.calibrated.2
  (State.setCfg (t.writes .main ((s.par.reg.intcon, s.par.reg.vIntcon) :: tuneWrites s.par.reg s.par.defaultChannel))
    { t.cfg with channel := s.par.defaultChannel }).setDrv .ready

/-! ## Reception -/

/-- Byte `k` of a list, 0 beyond its end. -/
def byteAt (l : List Byte) (k : Nat) : Byte := l.getD k 0

/-- The RX record of an image of the given shape (30 R77, 42 R142). -/
def recordOf (h : RxShape) (image : List Byte) : RxRec where
  valid := true
  frameLen := (byteAt image 0).toNat
  hdrLen := h.hdr
  fcf := half (byteAt image 2) (byteAt image 1)
  seq := byteAt image 3
  pan := half (byteAt image 5) (byteAt image 4)
  dstLen := h.dl
  dst := (image.drop 6).take h.dl
  srcLen := h.sl
  src := (image.drop (6 + h.dl)).take h.sl
  payloadLen := h.n
  payload := (image.drop (1 + h.hdr)).take h.n
  lqi := byteAt image (1 + (byteAt image 0).toNat)
  rssi := byteAt image (2 + (byteAt image 0).toNat)

/-- The frame parser as a function: the record of an image, or none when the frame is dropped (42 R142, R143, 30 R86). -/
def parseFrame (p : Params) (image : List Byte) : Option RxRec :=
  (rxShape p (byteAt image 0).toNat (half (byteAt image 2) (byteAt image 1))).map fun h => recordOf h image

/-- The address bytes of an addressing mode that has a length (30 R74). -/
def modeLen (m : BitVec 2) : Nat := if m = 2 then 2 else if m = 3 then 8 else 0

/-- The header length a FrameControl announces (30 R75). -/
def announced (f : Half) : Nat := 5 + modeLen (fcfDm f) + modeLen (fcfSm f)

/-- The drop condition of 42 R143, in its order: a mode of 1, a prefix over 127, a prefix too small for the header, a payload
that does not fit. -/
abbrev Dropped (p : Params) (L : Nat) (f : Half) : Prop :=
  fcfDm f = 1 ∨ fcfSm f = 1 ∨ 127 < L ∨ L < announced f + p.rxTrailerLen ∨ 116 < L - announced f - p.rxTrailerLen

/-- Lines 1 to 3 of `RXPATH`: reception off, then the length and FrameControl reads. -/
def State.rxHead (s : State) : List Byte × State :=
  (s.afterBusWrite .irq s.par.reg.rxctl s.par.reg.vRxdis).reads .irq (locsAt s.par.reg.rxfifo 0 3)

/-- The locations lines 5 to 10 of `RXPATH` read: all up to the end of the payload, then the two trailing bytes. -/
def rxTailLocs (b : Loc) (L : Nat) (h : RxShape) : List Loc :=
  locsAt b 3 (3 + h.dl + h.sl + h.n) ++ locsAt b (1 + L) 2

/-- The record lines 5 to 10 make of the bytes of the head and of the tail, in reading order. -/
def recordOfReads (L : Byte) (fcf : Half) (h : RxShape) (tail : List Byte) : RxRec where
  valid := true
  frameLen := L.toNat
  hdrLen := h.hdr
  fcf := fcf
  seq := byteAt tail 0
  pan := half (byteAt tail 2) (byteAt tail 1)
  dstLen := h.dl
  dst := (tail.drop 3).take h.dl
  srcLen := h.sl
  src := (tail.drop (3 + h.dl)).take h.sl
  payloadLen := h.n
  payload := (tail.drop (3 + h.dl + h.sl)).take h.n
  lqi := byteAt tail (3 + h.dl + h.sl + h.n)
  rssi := byteAt tail (4 + h.dl + h.sl + h.n)

/-- `RXPATH` (42 R142, R143): the drop, or the commit. -/
def State.received (s : State) : State :=
  let p := s.par
  let L := byteAt s.rxHead.1 0
  let fcf := half (byteAt s.rxHead.1 2) (byteAt s.rxHead.1 1)
  match rxShape p L.toNat fcf with
  | none => s.rxHead.2.afterBusWrite .irq p.reg.rxctl p.reg.vRxen
  | some h =>
    let tail := State.reads .irq (rxTailLocs p.reg.rxfifo L.toNat h) s.rxHead.2
    ((tail.2.setRxRec (recordOfReads L fcf h tail.1)).afterBusWrite .irq p.reg.rxctl p.reg.vRxen).setRxEvent
      (satInc8 s.rxEvent)

/-- `TXPATH` (42 R144). -/
def State.completed (s : State) : State :=
  ((s.afterBusRead .irq s.par.reg.txstat).setTxRec (txRecOf s.par.reg (s.env.read s.par.reg s.par.reg.txstat).1)).setTxEvent
    (satInc8 s.txEvent)

/-- `IRQ` (42 R141): one read of the status, RX before TX. -/
def State.serviced (s : State) : State :=
  let st := (s.env.read s.par.reg s.par.reg.intstat).1
  let a := s.afterBusRead .irq s.par.reg.intstat
  let b := if st.getLsbD s.par.reg.bRxif.val then a.received else a
  if st.getLsbD s.par.reg.bTxif.val then b.completed else b

/-- The transactions of an `RXPATH` that ran to its end: it stops reception first and restarts it last, on the drop path and
on the commit path alike (42 R142, R143). -/
abbrev RxTrace (r : RegMap) (evs : List BusEvent) : Prop :=
  5 ≤ evs.length ∧ (∀ e ∈ evs, e.ctx = .irq) ∧
  (∃ e, evs.head? = some e ∧ e.dir = .write ∧ e.loc = r.rxctl ∧ e.data = r.vRxdis) ∧
  ∃ e, evs.getLast? = some e ∧ e.dir = .write ∧ e.loc = r.rxctl ∧ e.data = r.vRxen

/-- The transactions of a frame handed to the transceiver (41 R125): main-context writes, from the first FIFO byte to the
trigger. -/
abbrev FrameTrace (r : RegMap) (evs : List BusEvent) : Prop :=
  8 ≤ evs.length ∧ (∀ e ∈ evs, e.ctx = .main ∧ e.dir = .write) ∧
  (∃ e, evs.head? = some e ∧ e.loc = locPlus r.txfifo 0) ∧ ∃ e, evs.getLast? = some e ∧ e.loc = r.txncon

/-- No reply was refused between the two states (43 R173). -/
abbrev NoReplyRefused (s t : State) : Prop := ∀ new, t.out = s.out ++ new → ∀ c, OutEvent.replyRefused c ∉ new

/-- The one transaction of a `TXPATH` (42 R144). -/
abbrev TxTrace (r : RegMap) (evs : List BusEvent) : Prop :=
  ∃ e, evs = [e] ∧ e.ctx = .irq ∧ e.dir = .read ∧ e.loc = r.txstat

/-- The RX FIFO holds the image of a received frame, and no script answers for it. -/
abbrev HoldsImage (s : State) (image : List Byte) : Prop :=
  s.env.scripts = [] ∧ image.length ≤ s.env.imageLen ∧ ∀ i, i < image.length → s.env.peek (locPlus s.par.reg.rxfifo i) = image[i]?

/-- The FIFO is no control location of the RX path: its reads have no side effect and the reception switch is outside. -/
abbrev FifoApart (r : RegMap) : Prop :=
  PlainLoc r r.rxctl ∧ inRxFifo r r.rxctl = false ∧ inRxFifo r r.intstat = false

/-- The RX image of the frame that a TX image describes, with the two trailing bytes (42 R152). -/
def rxImageOf (tx : List Byte) (lqi rssi : Byte) : List Byte := tx.drop 1 ++ [lqi, rssi]

end Sys2Proof.Machine

namespace Sys2Proof

/-! ## What a row may touch -/

/-- The rows of the interrupt context (60 R205). -/
def Instr.isIrqRow : Instr → Bool
  | .irq => true
  | .rxpath => true
  | .txpath => true
  | _ => false

/-- The rows that mutate the DeviceTable, and the rows that contain one of them (43 R175). -/
def Instr.mayWriteDev : Instr → Bool
  | .poll => true
  | .onReceive => true
  | .m07 _ => true
  | .m01a => true
  | .m13 _ => true
  | .m08 _ => true
  | .m01d _ _ => true
  | .m02 _ => true
  | .m0a _ => true
  | _ => false

/-- The rows that advance `local_seq`, and the rows that contain one of them (43 R174). -/
def Instr.mayWriteLocalSeq : Instr → Bool
  | .poll => true
  | .onReceive => true
  | .m13 _ => true
  | .m08 _ => true
  | .m01d _ _ => true
  | .m02 _ => true
  | _ => false

/-- The rows that send a frame (10 R29). -/
def Instr.mayWriteTxSeq : Instr → Bool
  | .send _ _ => true
  | .send16Ack _ _ => true
  | .poll => true
  | .onReceive => true
  | .m07 _ => true
  | .m01a => true
  | .m13 _ => true
  | .m08 _ => true
  | .m01d _ _ => true
  | .m02 _ => true
  | _ => false

/-- The rows that reply, and the rows that contain one of them (43 R173). -/
def Instr.mayReply : Instr → Bool
  | .poll => true
  | .onReceive => true
  | .m07 _ => true
  | .m01a => true
  | .m13 _ => true
  | .m08 _ => true
  | .m01d _ _ => true
  | .m02 _ => true
  | _ => false

/-- The rows that write RadioConfig (10 R28). -/
def Instr.mayWriteCfg : Instr → Bool
  | .init => true
  | .setChannel _ => true
  | .setPan _ => true
  | .setShortAddress _ => true
  | .setPromiscuous _ => true
  | .setPanController _ => true
  | _ => false

/-- The rows that emit an output event (60 R205). -/
def Instr.mayEmit : Instr → Bool
  | .poll => true
  | .onReceive => true
  | .onTxComplete => true
  | .m07 _ => true
  | .m01a => true
  | .m13 _ => true
  | .m08 _ => true
  | .m01d _ _ => true
  | .m02 _ => true
  | .mxx _ => true
  | .malformed => true
  | _ => false

/-- The rows gated by READY (41 R110). -/
def Instr.gated : Instr → Bool
  | .setChannel _ => true
  | .setPan _ => true
  | .getPan => true
  | .setShortAddress _ => true
  | .getShortAddress => true
  | .setPromiscuous _ => true
  | .setPanController _ => true
  | .rxDisable => true
  | .rxEnable => true
  | .send _ _ => true
  | .send16Ack _ _ => true
  | _ => false

end Sys2Proof

namespace Sys2Proof.Machine

/-- The locations a row stores to when it runs alone in the state `s`, computed as its meaning computes them. `reset` and
`initialize` are left out: they reset the transceiver, after which no location is known. -/
def storedTo (s : State) : Instr → List Loc
  | .swr a _ => [shortLoc a]
  | .lwr a _ => [longLoc a]
  | .setChannel _ => [s.par.reg.channel, s.par.reg.rfctl]
  | .setPan _ => [s.par.reg.panl, s.par.reg.panh]
  | .setShortAddress _ => [s.par.reg.sadrl, s.par.reg.sadrh]
  | .setPromiscuous _ => [s.par.reg.rxmcr]
  | .setPanController b => s.par.reg.rxmcr :: (if b then [s.par.reg.txmcr, s.par.reg.order] else [])
  | .rxDisable => [s.par.reg.rxctl]
  | .rxEnable => [s.par.reg.rxctl]
  | .send fcf payload =>
    match hdrShape fcf with
    | none => []
    | some h => s.par.reg.txncon :: locsAt s.par.reg.txfifo 0 (2 + hdrLen h + payload.length)
  | .send16Ack _ payload => s.par.reg.txncon :: locsAt s.par.reg.txfifo 0 (11 + payload.length)
  | .m07 _ => s.par.reg.txncon :: locsAt s.par.reg.txfifo 0 30
  | .m01a => s.par.reg.txncon :: locsAt s.par.reg.txfifo 0 27
  | .m13 _ => s.par.reg.txncon :: locsAt s.par.reg.txfifo 0 27
  | .m08 _ => s.par.reg.txncon :: locsAt s.par.reg.txfifo 0 26
  | .m01d _ _ => s.par.reg.txncon :: locsAt s.par.reg.txfifo 0 27
  | .m02 _ => s.par.reg.txncon :: locsAt s.par.reg.txfifo 0 27
  | .onReceive => s.par.reg.txncon :: locsAt s.par.reg.txfifo 0 30
  | .poll => s.par.reg.txncon :: locsAt s.par.reg.txfifo 0 30
  | _ => []

/-- Rows whose first elementary step comes before anything but tests on what no interrupt run writes: those tests passed. -/
def startsWithStep (s : State) : Instr → Bool
  | .srd a => decide (a.toNat < 64)
  | .swr a _ => decide (a.toNat < 64)
  | .lrd a => decide (a.toNat < 1024)
  | .lwr a _ => decide (a.toNat < 1024)
  | .reset => true
  | .init => decide (s.drv ≠ .faulted)
  | .setChannel n => decide (s.drv = .ready) && channelOk n
  | .setPan _ => decide (s.drv = .ready)
  | .getPan => decide (s.drv = .ready)
  | .setShortAddress _ => decide (s.drv = .ready)
  | .getShortAddress => decide (s.drv = .ready)
  | .setPromiscuous _ => decide (s.drv = .ready)
  | .setPanController _ => decide (s.drv = .ready)
  | .rxDisable => decide (s.drv = .ready)
  | .rxEnable => decide (s.drv = .ready)
  | .send fcf payload =>
    decide (s.drv = .ready) &&
      match hdrShape fcf with
      | some h => lengthOk (hdrLen h) payload.length
      | none => false
  | .send16Ack _ payload => decide (s.drv = .ready) && decide (payload.length ≤ 116)
  | .poll => true
  | .getRxRecord => true
  | .getTxRecord => true
  | .irq => false
  | .rxpath => false
  | .txpath => false
  | .onReceive => true
  | .onTxComplete => true
  | .m07 _ => true
  | .m01a => true
  | .m13 _ => true
  | .m08 _ => true
  | .m01d _ _ => true
  | .m02 _ => true
  | .m0a _ => true
  | .mxx _ => true
  | .malformed => s.par.forwardMalformed

/-! ## The invariant -/

/-- The lengths of an RX record fit its FrameControl (10 R37 (c), 10 R21). -/
abbrev RxRec.Fits (p : Params) (r : RxRec) : Prop :=
  r.hdrLen = 5 + r.dstLen + r.srcLen ∧ alen (fcfDm r.fcf) = some r.dstLen ∧ alen (fcfSm r.fcf) = some r.srcLen ∧
    r.frameLen = r.hdrLen + p.rxTrailerLen + r.payloadLen ∧ r.payloadLen ≤ 116 ∧ r.frameLen ≤ 127 ∧
    r.dst.length = r.dstLen ∧ r.src.length = r.srcLen ∧ r.payload.length = r.payloadLen

/-- A control state in which no elementary step is done yet. -/
def Ctl.fresh : Ctl → Bool
  | .idle => true
  | .running _ k => decide (k = 0)

/-- The invariant of the machine between two steps. -/
abbrev Inv (s : State) : Prop :=
  s.par.wf = true ∧
  (s.rxRec.valid = true → s.rxRec.Fits s.par) ∧
  s.dev.map (·.identity) = s.par.whitelist ∧
  (11 ≤ s.cfg.channel.toNat ∧ s.cfg.channel.toNat ≤ 26) ∧
  (s.drv = .ready → s.cfg.eadrValid = true) ∧
  s.cfg.coordinator = false ∧
  (s.rxEvent ≠ 0 → s.rxRec.valid = true) ∧ (s.txEvent ≠ 0 → s.txRec.valid = true) ∧
  (s.irqMask = false ∧ s.irqActive = false) ∧
  (s.mainCtl.fresh = true ∧ s.irqCtl.fresh = true) ∧
  (Memory.wf 64 s.env.shortMem = true ∧ Memory.wf 1024 s.env.longMem = true)

end Sys2Proof.Machine
end

