-- ==== Sys2Proof/Certificates/Slice0/Obligations.lean ====
section
/-! DEFINITION. Certificates/Slice0/Obligations.lean: the statements for the provers, one `def Obligations.<Name> : Prop`
each, listed in OBLIGATIONS.json. Statements about an operation that runs alone give its next state whole, so they carry
their own frame; the statements under "Any environment" hold whatever interrupts and whatever the transceiver does. -/

open Sys2Proof Sys2Proof.Machine

/-! ## Encoding -/

/-- Words written out from 30 R71, R72, R87, R79, R82 decode to what they stand for. The two write directions and
the two cause bits (`B_RXIF` = 3, `B_TXIF` = 0, which 30 R79 leaves open) are the model's choice (log entry 5, PRESUMED). -/
def Obligations.WordsDecode : Prop :=
  decode Params.default .bus [0x62] = .ok (.srd 0x31) ∧
  decode Params.default .bus [0x55, 0x07] = .ok (.swr 0x2A 0x07) ∧
  decode Params.default .bus [0xC1, 0xE0] = .ok (.lrd 0x20F) ∧
  decode Params.default .bus [0x80, 0x30, 0x19] = .ok (.lwr 0x001 0x19) ∧
  decode Params.default .host [0x03, 0x34, 0x12] = .ok (.setPan 0x1234) ∧
  decode Params.default .host [0x0B, 0x61, 0xCC, 0x02, 0xAA, 0xBB] = .ok (.send 0xCC61 [0xAA, 0xBB]) ∧
  decode Params.default .intstat [0x09] = .ok .rxpath ∧ decode Params.default .intstat [0x01] = .ok .txpath ∧
  decode Params.default (.msg false) [0x01, 0x05, 0x01] = .ok .m01a ∧
  decode Params.default (.msg true) [0x01, 0x05, 0x01] = .ok (.m01d 0x05 0x01)

/-- Decoding what the encoder writes gives the instruction back, for every instruction and every configuration in which the
two directions of a long transaction differ; only the three rows that no bit pattern selects have no encoding (30 R82). -/
def Obligations.DecodeOfEncode : Prop :=
  ∀ (p : Params) (i : Instr), p.reg.wf = true → p.longDirWr ≠ 0 → i.wf = true →
    match encode p i with
    | some (port, bytes) => decode p port bytes = .ok i
    | none => i = .irq ∨ i = .onReceive ∨ i = .onTxComplete

/-- The address bytes of the two transaction formats as numbers (30 R71, R72, R90). -/
def Obligations.AddressBytes : Prop :=
  ∀ (a : BusAddr) (d : BitVec 1) (m : BitVec 5),
    (shortAddrByte a d).toNat = 2 * (a.toNat % 64) + d.toNat ∧
    (longAddrByte0 a).toNat = 128 + a.toNat / 8 % 128 ∧
    (longAddrByte1 a m).toNat = 32 * (a.toNat % 8) + m.toNat

/-- Which action a payload selects: by its type byte, its length and, for 0x01, the stored flag (43 R162). -/
def Obligations.MessageDispatch : Prop :=
  ∀ (on0 : Bool) (t : Byte) (rest : List Byte),
    decodeMsg on0 [] = .malformed ∧
    (t = 0x07 → decodeMsg on0 (t :: rest) = if 1 ≤ rest.length then .m07 (byteAt rest 0) else .malformed) ∧
    (t = 0x01 → on0 = false → decodeMsg on0 (t :: rest) = .m01a) ∧
    (t = 0x01 → on0 = true → decodeMsg on0 (t :: rest) =
      if 2 ≤ rest.length then .m01d (byteAt rest 0) (byteAt rest 1) else .malformed) ∧
    (t = 0x13 → decodeMsg on0 (t :: rest) = if 1 ≤ rest.length then .m13 (byteAt rest 0) else .malformed) ∧
    (t = 0x08 → decodeMsg on0 (t :: rest) = if 2 ≤ rest.length then .m08 (byteAt rest 1) else .malformed) ∧
    (t = 0x02 → decodeMsg on0 (t :: rest) = if 2 ≤ rest.length then .m02 (byteAt rest 1) else .malformed) ∧
    (t = 0x0A → decodeMsg on0 (t :: rest) = if 1 ≤ rest.length then .m0a (byteAt rest 0) else .malformed) ∧
    (t ∉ knownTypes → decodeMsg on0 (t :: rest) = .mxx t)

/-! ## Register bus -/

/-- A read transaction in range returns the byte the transceiver answers and leaves one event on the trace, with the wire
bytes of 40 R101 and R103; a read of `A_INTSTAT` that no script answers returns the pending causes, clears them and lowers
the line (20 R57, R66 law (4)), any other read leaves both. -/
def Obligations.BusReads : Prop :=
  (∀ s : State, AtRest s →
    (∀ a : BitVec 8, a.toNat < 64 → exec (.srd a) s =
      .next ((s.afterBusRead .main (shortLoc a)).finish .ok (.byte (s.env.read s.par.reg (shortLoc a)).1))) ∧
    (∀ a : BusAddr, a.toNat < 1024 → exec (.lrd a) s =
      .next ((s.afterBusRead .main (longLoc a)).finish .ok (.byte (s.env.read s.par.reg (longLoc a)).1)))) ∧
  (∀ (s : State) (a : BitVec 8), NextStep s → a.toNat < 64 →
    ∃ (t : State) (v b : Byte), exec (.srd a) s = .next t ∧ t.result = ⟨.ok, .byte v⟩ ∧
      t.bus = s.bus ++ [⟨.main, .read, shortLoc a, v, [b]⟩] ∧ b.toNat = 2 * a.toNat + (1 - s.par.shortDirWr.toNat) ∧
      (shortLoc a = s.par.reg.intstat → t.env.pending = 0 ∧ t.env.irqLine = false ∧
        (takeScript (shortLoc a) s.env.scripts = none → v = s.env.pending)) ∧
      (shortLoc a ≠ s.par.reg.intstat → t.env.pending = s.env.pending ∧ t.env.irqLine = s.env.irqLine)) ∧
  (∀ (s : State) (a : BusAddr), NextStep s → a.toNat < 1024 →
    ∃ (t : State) (v b0 b1 : Byte), exec (.lrd a) s = .next t ∧ t.result = ⟨.ok, .byte v⟩ ∧
      t.bus = s.bus ++ [⟨.main, .read, longLoc a, v, [b0, b1]⟩] ∧ b0.toNat = 128 + a.toNat / 8 ∧
      b1.toNat = 32 * (a.toNat % 8) ∧
      (longLoc a = s.par.reg.intstat → t.env.pending = 0 ∧ t.env.irqLine = false ∧
        (takeScript (longLoc a) s.env.scripts = none → v = s.env.pending)) ∧
      (longLoc a ≠ s.par.reg.intstat → t.env.pending = s.env.pending ∧ t.env.irqLine = s.env.irqLine))

/-- A write transaction in range reaches the transceiver and leaves one event on the trace, with the wire bytes of 40 R102
and R104; a plain location then holds the byte, and each role of 20 R57 has its effect. That a location with several roles
has the effect of each is the model's choice (log entry 30), and so is that pending causes and the transmission in flight
survive a write to `A_SOFTRST` (log entry 10). -/
def Obligations.BusWrites : Prop :=
  (∀ (s : State) (v : Byte), AtRest s →
    (∀ a : BitVec 8, a.toNat < 64 → exec (.swr a v) s =
      .next ((s.afterBusWrite .main (shortLoc a) v).finish .ok .none)) ∧
    (∀ a : BusAddr, a.toNat < 1024 → exec (.lwr a v) s =
      .next ((s.afterBusWrite .main (longLoc a) v).finish .ok .none))) ∧
  (∀ (s : State) (a : BitVec 8) (v : Byte), NextStep s → a.toNat < 64 →
    ∃ (t : State) (b : Byte), exec (.swr a v) s = .next t ∧ t.result = ⟨.ok, .none⟩ ∧
      t.bus = s.bus ++ [⟨.main, .write, shortLoc a, v, [b, v]⟩] ∧ b.toNat = 2 * a.toNat + s.par.shortDirWr.toNat ∧
      WriteEffects s.par.reg (shortLoc a) v s.env t.env) ∧
  (∀ (s : State) (a : BusAddr) (v : Byte), NextStep s → a.toNat < 1024 →
    ∃ (t : State) (b0 b1 : Byte), exec (.lwr a v) s = .next t ∧ t.result = ⟨.ok, .none⟩ ∧
      t.bus = s.bus ++ [⟨.main, .write, longLoc a, v, [b0, b1, v]⟩] ∧ b0.toNat = 128 + a.toNat / 8 ∧
      b1.toNat = 32 * (a.toNat % 8) + s.par.longDirWr.toNat ∧ WriteEffects s.par.reg (longLoc a) v s.env t.env)

/-- An address that cannot be encoded is refused before anything is on the wire (40 R105). -/
def Obligations.BusAddressRefused : Prop :=
  ∀ (s : State) (v : Byte), s.mainCtl = .idle →
    (∀ a : BitVec 8, 64 ≤ a.toNat → exec (.srd a) s = .next (s.finish .badBusAddr .none) ∧
      exec (.swr a v) s = .next (s.finish .badBusAddr .none)) ∧
    (∀ a : BusAddr, 1024 ≤ a.toNat → exec (.lrd a) s = .next (s.finish .badBusAddr .none) ∧
      exec (.lwr a v) s = .next (s.finish .badBusAddr .none))

/-- A transaction that the environment answers `stuck` ends the run (40 R106, 20 R68, 60 R196). Which transaction it is, is
data of the model (log entry 19). -/
def Obligations.StuckBusEndsTheRun : Prop :=
  ∀ (s : State) (v : Byte), s.mainCtl = .idle → s.env.agenda = [] → s.env.irqLine = false → s.env.stuckAfter = some 0 →
    (∀ a : BitVec 8, a.toNat < 64 → exec (.srd a) s = .fault (.busStuck .main) ∧
      exec (.swr a v) s = .fault (.busStuck .main)) ∧
    (∀ a : BusAddr, a.toNat < 1024 → exec (.lrd a) s = .fault (.busStuck .main) ∧
      exec (.lwr a v) s = .fault (.busStuck .main))

/-- What `set_pan` and `set_short_address` wrote is what `get_pan` and `get_short_address` read (20 R66 law (1)), where the
two registers of a pair are different plain locations that no script answers for. -/
def Obligations.AddressPairsReadBack : Prop :=
  ∀ (s : State) (v : Half), InService s → s.env.scripts = [] →
    (s.par.reg.panl ≠ s.par.reg.panh →
      (∀ l ∈ [s.par.reg.panl, s.par.reg.panh], PlainLoc s.par.reg l ∧ l ≠ s.par.reg.intstat) →
      ∃ t u, exec (.setPan v) s = .next t ∧ exec .getPan t = .next u ∧ u.result = ⟨.ok, .half v⟩) ∧
    (s.par.reg.sadrl ≠ s.par.reg.sadrh →
      (∀ l ∈ [s.par.reg.sadrl, s.par.reg.sadrh], PlainLoc s.par.reg l ∧ l ≠ s.par.reg.intstat) →
      ∃ t u, exec (.setShortAddress v) s = .next t ∧ exec .getShortAddress t = .next u ∧ u.result = ⟨.ok, .half v⟩)

/-- Which bytes of the transceiver's memory a main-context row changes: none but those of the locations it stores to, which
`storedTo` computes (`reset` and `initialize` make every location unknown and are not meant). -/
def Obligations.MemoryFrame : Prop :=
  ∀ (i : Instr) (s t : State), AtRest s → i ≠ .reset → i ≠ .init → i.isIrqRow = false →
    (∀ l ∈ storedTo s i, PlainLoc s.par.reg l) → exec i s = .next t →
    ∀ l, l ∉ storedTo s i → t.env.peek l = s.env.peek l

/-- An interrupt row changes no byte of the transceiver's memory but that of `A_RXCTL` (20 R59). -/
def Obligations.InterruptMemoryFrame : Prop :=
  ∀ (i : Instr) (s t : State), i.isIrqRow = true → s.env.runMoves = [] → PlainLoc s.par.reg s.par.reg.rxctl →
    exec i s = .next t → ∀ l, l ≠ s.par.reg.rxctl → t.env.peek l = s.env.peek l

/-! ## Radio driver -/

/-- `reset` (41 R111): the pulse with its two delays, then COLD; no transaction, nothing else of the block changed. What the
transceiver forgets (log entry 10) and how the delays are recorded (log entry 20) are the model's choices. -/
def Obligations.ResetPulses : Prop :=
  ∀ s : State, AtRest s → exec .reset s =
    .next (({ s with
      rstN := true, drv := .cold, env := s.env.chipReset,
      pins := s.pins ++ [.rst false, .waitAtLeast s.par.tResetLow, .rst true, .waitAtLeast s.par.tResetHigh] }
      : State).finish .ok .none)

/-- `initialize` succeeds when both polls do (41 R112), with the extended address known or not (41 R130). -/
def Obligations.InitializeSucceeds : Prop :=
  ∀ s : State, AtRest s → s.drv ≠ .faulted → s.softReset.1 = true → s.calibrated.1 = true →
    exec .init s = .next (s.initialized.finish .ok .none)

/-- How many transactions a successful `initialize` makes (41 R112): `18 + |CAL_SEQ|` and the reads of
its two polls, each at least one and at most `MAX_POLL`. -/
def Obligations.InitializeTransactionCount : Prop :=
  ∀ s : State, AtRest s → s.drv ≠ .faulted → s.softReset.1 = true → s.calibrated.1 = true →
    ∃ t p1 p2, exec .init s = .next t ∧ 1 ≤ p1 ∧ p1 ≤ s.par.maxPoll ∧ 1 ≤ p2 ∧ p2 ≤ s.par.maxPoll ∧
      t.bus.length = s.bus.length + (1 + p1 + 1 + 2 + 2 + 8 + s.par.calSeq.length + p2 + 1 + 3)

/-- A poll that runs out is a hardware fault (60 R192): FAULTED, the code of that poll, and no further transaction. -/
def Obligations.InitializeTimesOut : Prop :=
  ∀ s : State, AtRest s → s.drv ≠ .faulted →
    (s.softReset.1 = false →
      exec .init s = .next ((s.softReset.2.setDrv .faulted).finish .hwSoftresetTimeout .none)) ∧
    (s.softReset.1 = true → s.calibrated.1 = false →
      exec .init s = .next ((s.calibrated.2.setDrv .faulted).finish .hwRxreadyTimeout .none))

/-- A bounded poll (41 R114) makes at most its bound of reads of its one location, at least one, writes nothing, and ends
at the first byte that matches. -/
def Obligations.BoundedPoll : Prop :=
  ∀ (s : State) (l : Loc) (m v : Byte) (k : Nat), Quiet s → l.inRange = true →
    ∃ (b : Bool) (t : State) (evs : List BusEvent),
      pollUntil l m v k s = .ok b t ∧ t.bus = s.bus ++ evs ∧ evs.length ≤ k ∧ (1 ≤ k → 1 ≤ evs.length) ∧
      (∀ e ∈ evs, e.ctx = .main ∧ e.dir = .read ∧ e.loc = l) ∧
      (∀ e ∈ evs.dropLast, e.data &&& m ≠ v) ∧
      (b = true ↔ ∃ e, evs.getLast? = some e ∧ e.data &&& m = v) ∧ (b = false → evs.length = k)

/-- With no extended address known, `initialize` reads the eight registers in ascending order into `cfg.eadr` (41 R130). -/
def Obligations.ExtendedAddressRead : Prop :=
  ∀ (s : State) (base : Loc), Quiet s → base.windowInRange 8 = true → s.cfg.eadrValid = false →
    ∃ t, loadExtendedAddress base s = .ok () t ∧ t.cfg.eadrValid = true ∧
      t.cfg.eadr.toList = (s.reads .main (locsAt base 0 8)).1 ∧ t.bus = (s.reads .main (locsAt base 0 8)).2.bus ∧
      t.env = (s.reads .main (locsAt base 0 8)).2.env

/-- `set_channel` (41 R115): the PLL value, the RF reset pulse, the shadow. -/
def Obligations.SetChannelTunes : Prop :=
  ∀ (s : State) (n : Byte), InService s → 11 ≤ n.toNat → n.toNat ≤ 26 →
    exec (.setChannel n) s = .next (State.finish
      ((s.writes .main (tuneWrites s.par.reg n)).setCfg { s.cfg with channel := n }) .ok .none)

/-- A channel outside 11 to 26 is rejected (41 R115); nothing else happens. -/
def Obligations.BadChannelRefused : Prop :=
  ∀ (s : State) (n : Byte), s.mainCtl = .idle → s.drv = .ready → (n.toNat < 11 ∨ 26 < n.toNat) →
    exec (.setChannel n) s = .next (s.finish .badChannel .none)

/-- The channel register value (30 R80): bits 7:4 are `n - 11`, bits 3:0 are 3. -/
def Obligations.ChannelValues : Prop :=
  ∀ n : Byte, 11 ≤ n.toNat → n.toNat ≤ 26 →
    (channelValue n).toNat = 16 * (n.toNat - 11) + 3 ∧ (channelValue n).toNat / 16 = n.toNat - 11 ∧
    (channelValue n).toNat % 16 = 3

/-- `set_pan` and `set_short_address` (41 R116, R118): the pair of writes, low byte first, then the shadow. -/
def Obligations.AddressPairsSet : Prop :=
  ∀ (s : State) (v : Half), InService s →
    exec (.setPan v) s = .next (State.finish
      ((s.writes .main (pairAt s.par.reg.panl s.par.reg.panh v)).setCfg { s.cfg with pan := v }) .ok .none) ∧
    exec (.setShortAddress v) s = .next (State.finish
      ((s.writes .main (pairAt s.par.reg.sadrl s.par.reg.sadrh v)).setCfg { s.cfg with short := v }) .ok .none)

/-- `get_pan` and `get_short_address` (41 R117, R119): two reads, low byte first; nothing of the block is written. -/
def Obligations.AddressPairsGet : Prop :=
  ∀ s : State, InService s →
    (let r := s.reads .main [s.par.reg.panl, s.par.reg.panh]
     exec .getPan s = .next (r.2.finish .ok (.half (half (byteAt r.1 1) (byteAt r.1 0))))) ∧
    (let r := s.reads .main [s.par.reg.sadrl, s.par.reg.sadrh]
     exec .getShortAddress s = .next (r.2.finish .ok (.half (half (byteAt r.1 1) (byteAt r.1 0)))))

/-- `set_promiscuous` (41 R120): the byte read, written back with the one bit put, and the shadow. -/
def Obligations.PromiscuousSet : Prop :=
  ∀ (s : State) (b : Bool), InService s →
    ∃ w : Byte, (∀ k : Fin 8, w.getLsbD k.val =
        if k = s.par.reg.bPromi then b else (s.env.read s.par.reg s.par.reg.rxmcr).1.getLsbD k.val) ∧
      exec (.setPromiscuous b) s = .next (State.finish
        (((s.afterBusRead .main s.par.reg.rxmcr).afterBusWrite .main s.par.reg.rxmcr w).setCfg
          { s.cfg with promiscuous := b }) .ok .none)

/-- `set_pan_controller` (41 R121): with `true` the controller bit, the slotted bit cleared and both orders off, together;
with `false` the controller bit alone. -/
def Obligations.PanControllerSet : Prop :=
  ∀ s : State, InService s →
    (let t := s.afterBusRead .main s.par.reg.rxmcr
     let a := t.afterBusWrite .main s.par.reg.rxmcr
       (bitSet (s.env.read s.par.reg s.par.reg.rxmcr).1 s.par.reg.bPancoord)
     let u := a.afterBusRead .main s.par.reg.txmcr
     let w := bitClear (a.env.read s.par.reg s.par.reg.txmcr).1 s.par.reg.bSlotted
     exec (.setPanController true) s = .next (State.finish
       (((u.afterBusWrite .main s.par.reg.txmcr w).afterBusWrite .main s.par.reg.order s.par.reg.vOrderOff).setCfg
         { s.cfg with panController := true }) .ok .none)) ∧
    exec (.setPanController false) s = .next (State.finish
      (((s.afterBusRead .main s.par.reg.rxmcr).afterBusWrite .main s.par.reg.rxmcr
        (bitClear (s.env.read s.par.reg s.par.reg.rxmcr).1 s.par.reg.bPancoord)).setCfg
          { s.cfg with panController := false }) .ok .none)

/-- `rx_disable` and `rx_enable` (41 R122, R123): one write to `A_RXCTL`, nothing of the block written. -/
def Obligations.ReceptionSwitched : Prop :=
  ∀ s : State, InService s →
    exec .rxDisable s = .next ((s.afterBusWrite .main s.par.reg.rxctl s.par.reg.vRxdis).finish .ok .none) ∧
    exec .rxEnable s = .next ((s.afterBusWrite .main s.par.reg.rxctl s.par.reg.vRxen).finish .ok .none)

/-- Every gated operation is refused outside READY, and `initialize` from FAULTED; nothing else changes (41 R110). -/
def Obligations.NotReadyRefused : Prop :=
  (∀ (i : Instr) (s : State), i.gated = true → s.mainCtl = .idle → s.drv ≠ .ready →
    exec i s = .next (s.finish .notReady .none)) ∧
  (∀ s : State, s.mainCtl = .idle → s.drv = .faulted → exec .init s = .next (s.finish .notReady .none))

/-- `send` (41 R125) that is not refused: the image at `A_TXFIFO`, the trigger, `tx_seq` one further. -/
def Obligations.SendTransmits : Prop :=
  ∀ (s : State) (fcf : Half) (payload : List Byte) (h : HdrShape), InService s →
    (s.rxRec.valid = true → s.rxRec.Fits s.par) → hdrShape fcf = some h → payload.length ≤ 116 →
    hdrLen h + payload.length ≤ 127 → (h.dl ≠ 0 → s.rxRec.valid = true ∧ s.rxRec.srcLen = h.dl) →
    exec (.send fcf payload) s = .next ((s.sent h fcf payload).finish .ok .none) ∧
    (txImage s h fcf payload).length = 2 + hdrLen h + payload.length

/-- The refusals of `send` in READY, in the order they are tested (60 R197); each leaves the block as it was. -/
def Obligations.SendRefused : Prop :=
  ∀ (s : State) (fcf : Half) (payload : List Byte), InService s →
    (fcfDm fcf = 1 ∨ fcfSm fcf = 1 → exec (.send fcf payload) s = .next (s.finish .badAddrMode .none)) ∧
    (∀ h, hdrShape fcf = some h →
      (116 < payload.length ∨ 127 < hdrLen h + payload.length →
        exec (.send fcf payload) s = .next (s.finish .badLength .none)) ∧
      (payload.length ≤ 116 → hdrLen h + payload.length ≤ 127 → h.dl ≠ 0 →
        (s.rxRec.valid = false ∨ s.rxRec.srcLen ≠ h.dl) → s.irqMask = false →
        exec (.send fcf payload) s = .next (s.finish .noDest .none)))

/-- `send16_ack` (41 R127): its image, the trigger that waits for the acknowledgement, and its one refusal in READY. -/
def Obligations.Send16Transmits : Prop :=
  ∀ (s : State) (dest : Half) (payload : List Byte), InService s →
    (payload.length ≤ 116 → exec (.send16Ack dest payload) s =
      .next ((s.transmitted (txImage16 s dest payload) s.par.reg.vTxtrigAck).finish .ok .none)) ∧
    (116 < payload.length → exec (.send16Ack dest payload) s = .next (s.finish .badLength .none))

/-- The header-length law (41 R126): `5 + map(dst) + map(src)` for the nine pairs, and refused when either mode is 1; the
received frame's header length is the same function. -/
def Obligations.HeaderLengthLaw : Prop :=
  (∀ fcf : Half, hdrShape fcf = none ↔ fcfDm fcf = 1 ∨ fcfSm fcf = 1) ∧
  (∀ (fcf : Half) (h : HdrShape), hdrShape fcf = some h →
    hdrLen h = 5 + (match (fcfDm fcf).toNat with | 0 => 0 | 2 => 2 | _ => 8) +
      (match (fcfSm fcf).toNat with | 0 => 0 | 2 => 2 | _ => 8)) ∧
  (∀ (p : Params) (L : Nat) (fcf : Half) (x : RxShape), rxShape p L fcf = some x →
    ∃ h, hdrShape fcf = some h ∧ x.hdr = hdrLen h) ∧
  (∀ (s : State) (fcf : Half) (payload : List Byte), s.mainCtl = .idle → s.drv = .ready →
    (fcfDm fcf = 1 ∨ fcfSm fcf = 1) → exec (.send fcf payload) s = .next (s.finish .badAddrMode .none)) ∧
  (∀ (s : State) (fcf : Half) (payload : List Byte) (h : HdrShape), InService s → hdrShape fcf = some h →
    payload.length ≤ 116 → hdrLen h + payload.length ≤ 127 →
    (h.dl ≠ 0 → s.rxRec.valid = true ∧ s.rxRec.srcLen = h.dl) →
    ∃ t e, exec (.send fcf payload) s = .next t ∧ t.bus[s.bus.length]? = some e ∧
      e.loc = locPlus s.par.reg.txfifo 0 ∧ e.data.toNat = hdrLen h)

/-- The record accessors (41 R128, R129): their encodings; `none` until a record is valid, then a copy of every field,
nothing else changed; and whatever interrupts them, the copy is the one record there is at their end, so it is never torn.
(That a value is returned in `result` is the model's form: log entry 18; that the copy is one step is the decision D37 of the
spec, which 41 R128 marks as its own.) -/
def Obligations.RecordsReturned : Prop :=
  (decodeHost [0x0E] = .ok .getRxRecord ∧ decodeHost [0x0F] = .ok .getTxRecord) ∧
  (∀ s : State, AtRest s →
    exec .getRxRecord s = .next (s.finish .ok (.rxRecord (if s.rxRec.valid then some s.rxRec else none))) ∧
    exec .getTxRecord s = .next (s.finish .ok
      (.txRecord (if s.txRec.valid then some (s.txRec.success, s.txRec.retries, s.txRec.channelBusy) else none)))) ∧
  (∀ s t : State, exec .getRxRecord s = .next t →
    t.result = ⟨.ok, .rxRecord (if t.rxRec.valid then some t.rxRec else none)⟩) ∧
  (∀ s t : State, exec .getTxRecord s = .next t →
    t.result = ⟨.ok,
      .txRecord (if t.txRec.valid then some (t.txRec.success, t.txRec.retries, t.txRec.channelBusy) else none)⟩)

/-! ## Interrupt bridge -/

/-- `RXPATH` (42 R142), whatever bytes the transceiver answers; it drops exactly the frames of 42 R143 (30 R86), with five
transactions and nothing else changed, and commits every other one with the lengths of 30 R75 and R77, counting it up to
255 (42 R145). -/
def Obligations.RxpathReceives : Prop :=
  (∀ (p : Params) (L : Nat) (f : Half),
    (rxShape p L f = none ↔ Dropped p L f) ∧
    (¬ Dropped p L f → rxShape p L f =
      some ⟨modeLen (fcfDm f), modeLen (fcfSm f), announced f, L - announced f - p.rxTrailerLen⟩)) ∧
  (∀ s : State, RunReady s → exec .rxpath s = .next s.received ∧
    (Dropped s.par (byteAt s.rxHead.1 0).toNat (half (byteAt s.rxHead.1 2) (byteAt s.rxHead.1 1)) →
      s.received.rxRec = s.rxRec ∧ s.received.rxEvent = s.rxEvent ∧ s.received.bus.length = s.bus.length + 5) ∧
    (¬ Dropped s.par (byteAt s.rxHead.1 0).toNat (half (byteAt s.rxHead.1 2) (byteAt s.rxHead.1 1)) →
      s.received.rxRec.valid = true ∧ s.received.rxRec.Fits s.par ∧
      s.received.rxEvent.toNat = min 255 (s.rxEvent.toNat + 1)))

/-- `TXPATH` (42 R144): one read, the completion record, the counter one up and saturating at 255 (00 R8, 10 R25). -/
def Obligations.TxpathCompletes : Prop :=
  ∀ s : State, RunReady s → exec .txpath s = .next s.completed ∧
    s.completed.txRec.success = !(s.env.read s.par.reg s.par.reg.txstat).1.getLsbD 0 ∧
    s.completed.txRec.retries.toNat = (s.env.read s.par.reg s.par.reg.txstat).1.toNat / 64 ∧
    s.completed.txRec.channelBusy = (s.env.read s.par.reg s.par.reg.txstat).1.getLsbD s.par.reg.bCcafail.val ∧
    s.completed.txRec.valid = true ∧ s.completed.txEvent.toNat = min 255 (s.txEvent.toNat + 1)

/-- `IRQ` (42 R141): one read of the status, then RX before TX, each if its bit is set. -/
def Obligations.IrqServices : Prop :=
  ∀ s : State, RunReady s → entryCond s = true → exec .irq s = .next s.serviced

/-- An interrupt run starts only under the entry condition (42 R140). Where it does not hold, `exec` of `IRQ` is refused (the
form of the refusal is the model's: log entry 16); an agenda that asks for a run, and one that is exhausted, start none,
neither at a point between two steps of an operation, nor before the first step of a row, nor in an idle turn (the agenda is
the model's: log entries 1, 2, 4). -/
def Obligations.IrqNotAdmitted : Prop :=
  (∀ s : State, entryCond s = true ↔ EntryHolds s) ∧
  (∀ s : State, ¬ EntryHolds s → exec .irq s = .refused .irqNotAdmitted) ∧
  (∀ (s : State) (as : List Act), ¬ EntryHolds s →
    (s.env.agenda = .startIrq :: as → ∀ t, boundary s = .ok () t ↔ boundary (s.setAgenda as) = .ok () t) ∧
    (s.env.agenda = [] → boundary s = .ok () s)) ∧
  (∀ (i : Instr) (s : State) (as : List Act), ¬ EntryHolds s → startsWithStep s i = true → s.mainCtl = .idle →
    (s.env.agenda = .startIrq :: as → exec i s = exec i (s.setAgenda as)) ∧
    (s.env.agenda = [] → exec i s = exec i (s.setAgenda [.proceed]))) ∧
  (∀ (s : State) (as : List Act), ¬ EntryHolds s → s.irqCtl = .idle →
    (s.env.agenda = .startIrq :: as → step s = .next (s.setAgenda as)) ∧
    (s.env.agenda = [] → s.mainCtl = .idle → s.hostq = [] → step s = .next s))

/-- `RXPATH` on an RX FIFO that holds the image of a received frame commits the record that the parser makes of it, and
counts the event, saturating at 255; where the frame is one of those 42 R143 drops, record and counter stay. -/
def Obligations.RxpathParsesImage : Prop :=
  ∀ (s : State) (image : List Byte), RunReady s → FifoApart s.par.reg → HoldsImage s image → 3 ≤ image.length →
    (¬ Dropped s.par (byteAt image 0).toNat (half (byteAt image 2) (byteAt image 1)) →
      3 + (byteAt image 0).toNat ≤ image.length) →
    ∃ t, exec .rxpath s = .next t ∧
      (¬ Dropped s.par (byteAt image 0).toNat (half (byteAt image 2) (byteAt image 1)) →
        ∃ r, parseFrame s.par image = some r ∧ t.rxRec = r ∧ t.rxEvent.toNat = min 255 (s.rxEvent.toNat + 1)) ∧
      (Dropped s.par (byteAt image 0).toNat (half (byteAt image 2) (byteAt image 1)) →
        parseFrame s.par image = none ∧ t.rxRec = s.rxRec ∧ t.rxEvent = s.rxEvent)

/-- Round trip (42 R152): the frame that `send` builds, received back, gives its FrameControl, sequence number, PAN id,
addresses and payload. -/
def Obligations.SentFrameParsesBack : Prop :=
  ∀ (s : State) (fcf : Half) (payload : List Byte) (h : HdrShape) (lqi rssi : Byte), s.par.rxTrailerLen = 0 →
    (s.rxRec.valid = true → s.rxRec.Fits s.par) → hdrShape fcf = some h → payload.length ≤ 116 →
    hdrLen h + payload.length ≤ 127 → (h.dl ≠ 0 → s.rxRec.valid = true ∧ s.rxRec.srcLen = h.dl) →
    ∃ r, parseFrame s.par (rxImageOf (txImage s h fcf payload) lqi rssi) = some r ∧
      r.fcf = fcf ∧ r.seq = s.txSeq ∧ r.pan = s.cfg.pan ∧ r.dst = s.rxRec.src.take h.dl ∧
      r.src = srcAddr s.cfg h.sl ∧ r.payload = payload ∧ r.hdrLen = hdrLen h ∧ r.frameLen = hdrLen h + payload.length ∧
      r.lqi = lqi ∧ r.rssi = rssi

/-- A main-context row that starts with a step of its own gives what it gives when a pending interrupt run is taken before
it (42 R140, 60 R202, R203): the run goes between two steps and the main context continues with the step it was about to
take. `startsWithStep` says which rows these are in a state: all of the main context, their refusals apart. The agenda that
starts the run is the model's (log entries 1, 2). -/
def Obligations.InterruptBeforeFirstStep : Prop :=
  ∀ (i : Instr) (s u : State) (as : List Act), startsWithStep s i = true → s.mainCtl = .idle →
    s.env.agenda = .startIrq :: as → entryCond s = true → exec .irq s = .next u →
    exec i s = exec i (u.setAgenda as)

/-! ## Protocol decoder and event pump -/

/-- `M07` and `M01A` (43 R164, R165): the source marked offline, and the reply. -/
def Obligations.OfflineActions : Prop :=
  ∀ (s : State) (p1 : Byte), AtRest s → (s.rxRec.valid = true → s.rxRec.Fits s.par) →
    exec (.m07 p1) s = .next (State.finish ((s.withDevice fun d => { d with online := false }).replied
      (if s.par.ackM07 then 0xCC61 else 0xCC41)
      [0xFF, 0x45, 0x00, 0x00, 0x7E, if p1 = 0x0F then 0x01 else if p1 = 0x2F then 0x02 else 0x00, 0x00]) .ok .none) ∧
    exec .m01a s = .next (State.finish ((s.withDevice fun d => { d with online := false }).replied 0xCC61
      [0x02, 0xFE, 0xFF, 0x00]) .ok .none)

/-- `M13` (43 R166): the source online with the received sequence, `local_seq` used and advanced, the reply. The record of the
slot is changed and no other, and none where there is no slot (43 R172); so is every change of the table in the statements
about the other actions. -/
def Obligations.BeaconAction : Prop :=
  (∀ (s : State) (p1 : Byte), AtRest s → (s.rxRec.valid = true → s.rxRec.Fits s.par) →
    exec (.m13 p1) s = .next (State.finish
      (((s.withDevice fun d => { d with online := true, sequence := p1 }).setLocalSeq (s.localSeq + 1)).replied 0xCC61
        [0x14, s.localSeq, p1, 0x00]) .ok .none)) ∧
  (∀ (s t : State) (p1 : Byte), AtRest s → (s.rxRec.valid = true → s.rxRec.Fits s.par) → exec (.m13 p1) s = .next t →
    (∀ k, s.dec.slot = some k → ∀ j, t.dev[j]? =
      if j = k then s.dev[j]?.map fun d => ⟨d.identity, true, p1⟩ else s.dev[j]?) ∧
    (s.dec.slot = none → t.dev = s.dev)) ∧
  (∀ (s : State) (f : DeviceRecord → DeviceRecord),
    (∀ k, s.dec.slot = some k → ∀ j, (s.withDevice f).dev[j]? = if j = k then s.dev[j]?.map f else s.dev[j]?) ∧
    (s.dec.slot = none → s.withDevice f = s))

/-- `M08` (43 R167): the source online, `local_seq` advanced, the three-byte reply with the stored sequence. -/
def Obligations.ShortReplyAction : Prop :=
  ∀ (s : State) (p2 : Byte), AtRest s → (s.rxRec.valid = true → s.rxRec.Fits s.par) →
    exec (.m08 p2) s = .next (State.finish
      (((s.withDevice fun d => { d with online := true }).setLocalSeq (s.localSeq + 1)).replied 0xCC41
        [if p2.getLsbD 0 then 0x09 else 0x0A, s.localSeq, s.dec.ss]) .ok .none)

/-- `M01D` and `M02` (43 R168, R169): table, counter, reply, then the forward of the whole payload. -/
def Obligations.DataActions : Prop :=
  ∀ (s : State) (p1 p2 : Byte), AtRest s → (s.rxRec.valid = true → s.rxRec.Fits s.par) →
    exec (.m01d p1 p2) s = .next (State.finish
      ((((s.withDevice fun d => { d with online := true, sequence := p1 }).setLocalSeq (s.localSeq + 1)).replied 0xCC41
        [if p2.getLsbD 0 then 0x09 else 0x02, s.localSeq, p1, 0x00]).forwarded .data) .ok .none) ∧
    exec (.m02 p2) s = .next (State.finish
      ((((s.withDevice fun d => { d with online := true }).setLocalSeq (s.localSeq + 1)).replied 0xCC41
        [if p2.getLsbD 0 then 0x09 else 0x0A, s.localSeq, s.dec.ss, 0x00]).forwarded .data) .ok .none)

/-- `M0A`, `MXX` and `MALFORMED` (43 R170, R171, R163): no reply, `local_seq` and every `online` unchanged. -/
def Obligations.SilentActions : Prop :=
  ∀ (s : State) (p1 t : Byte), AtRest s →
    exec (.m0a p1) s = .next (State.finish (s.withDevice fun d => { d with sequence := p1 }) .ok .none) ∧
    exec (.mxx t) s = .next (State.finish (s.forwarded .unknown) .ok .none) ∧
    exec .malformed s = .next (State.finish (if s.par.forwardMalformed then s.forwarded .unknown else s) .ok .none)

/-- `ON_RECEIVE` (43 R161, R162, R180): it takes the whole record as its snapshot, with the pre-mutation values, and runs
`MALFORMED` for a source that is not extended, else the action its payload selects. -/
def Obligations.OnReceiveDispatches : Prop :=
  ∀ s : State, AtRest s → (s.rxRec.valid = true → s.rxRec.Fits s.par) →
    (decCtx s.par s.dev s.rxRec).r = s.rxRec ∧
    ∃ t, exec .onReceive s = .next t ∧ t.result = ⟨.ok, .none⟩ ∧ t.dec = decCtx s.par s.dev s.rxRec ∧
      (s.rxRec.srcLen ≠ 8 → exec .malformed (s.setDec (decCtx s.par s.dev s.rxRec)) = .next t) ∧
      (s.rxRec.srcLen = 8 →
        exec (decodeMsg (decCtx s.par s.dev s.rxRec).on0 s.rxRec.payload) (s.setDec (decCtx s.par s.dev s.rxRec)) = .next t)

/-- The lookup (43 R161): with distinct identities the slot is the only index whose identity is the source, and `on0` and
`ss` are that record's values; without one they are `false` and `UNKNOWN_SEQ` (43 R172), and so for a source that is not
extended (43 R180). The snapshot is the record it is given. -/
def Obligations.LookupFindsTheRecord : Prop :=
  (∀ (p : Params) (dev : List DeviceRecord) (r : RxRec), (decCtx p dev r).r = r ∧
    (r.srcLen ≠ 8 → (decCtx p dev r).slot = none ∧ (decCtx p dev r).on0 = false ∧ (decCtx p dev r).ss = p.unknownSeq)) ∧
  (∀ (p : Params) (dev : List DeviceRecord) (r : RxRec), r.srcLen = 8 → (dev.map (·.identity)).Nodup →
    (∀ i d, dev[i]? = some d → (d.identity.toList = r.src ↔ (decCtx p dev r).slot = some i)) ∧
    (∀ i d, dev[i]? = some d → (decCtx p dev r).slot = some i →
      (decCtx p dev r).on0 = d.online ∧ (decCtx p dev r).ss = d.sequence) ∧
    ((decCtx p dev r).slot = none → (decCtx p dev r).on0 = false ∧ (decCtx p dev r).ss = p.unknownSeq))

/-- `ON_TX_COMPLETE` (42 R149): one report of the record. -/
def Obligations.OnTxCompleteReports : Prop :=
  ∀ s : State, AtRest s → exec .onTxComplete s = .next (State.finish
    (s.emit (.txReport s.txRec.success s.txRec.retries s.txRec.channelBusy)) .ok .none)

/-- `poll` (42 R146): each counter that is not zero is cleared and its handler runs once, RX first; with both zero nothing
happens. -/
def Obligations.PollServes : Prop :=
  ∀ s : State, AtRest s → (s.rxRec.valid = true → s.rxRec.Fits s.par) →
    ∃ t, (if s.rxEvent = 0 then t = s else exec .onReceive (s.setRxEvent 0) = .next t) ∧
      exec .poll s = .next (State.finish
        (if s.txEvent = 0 then t
         else (t.setTxEvent 0).emit (.txReport s.txRec.success s.txRec.retries s.txRec.channelBusy)) .ok .none)

/-! ## Any environment -/

/-- Which fields a row may change at all, whatever interrupts and whatever the transceiver does meanwhile: the configuration
and the host's queue never; the rest only in the rows that the spec lets write it (10 R27 to R31, 60 R205, 43 R160). -/
def Obligations.RowFrame : Prop :=
  ∀ (i : Instr) (s t : State), exec i s = .next t →
    t.par = s.par ∧ t.hostq = s.hostq ∧ t.irqActive = s.irqActive ∧ t.cfg.coordinator = s.cfg.coordinator ∧
    (i ≠ .reset → t.rstN = s.rstN ∧ t.pins = s.pins) ∧
    (i ≠ .reset → i ≠ .init → t.drv = s.drv) ∧
    (i.mayWriteCfg = false → t.cfg = s.cfg) ∧
    (i.mayWriteTxSeq = false → t.txSeq = s.txSeq ∧ t.irqMask = s.irqMask) ∧
    (i.mayWriteLocalSeq = false → t.localSeq = s.localSeq) ∧
    (i.mayWriteDev = false → t.dev = s.dev) ∧
    (i.mayEmit = false → t.out = s.out) ∧
    (i ≠ .poll → i ≠ .onReceive → t.dec = s.dec) ∧
    (i.isIrqRow = true → t.result = s.result ∧ t.mainCtl = s.mainCtl)

/-- An interrupt row writes nothing but the two records, the two counters and the bus (60 R202, R205). -/
def Obligations.InterruptWritesOnly : Prop :=
  ∀ (i : Instr) (s t : State), i.isIrqRow = true → exec i s = .next t →
    t = { s with rxRec := t.rxRec, txRec := t.txRec, rxEvent := t.rxEvent, txEvent := t.txEvent, env := t.env,
                 bus := t.bus }

/-- The sequence counters advance by at most one in a row, wrapping (10 R29, R30, R37 (e)). -/
def Obligations.CountersAdvanceByOne : Prop :=
  ∀ (i : Instr) (s t : State), exec i s = .next t →
    (t.localSeq = s.localSeq ∨ t.localSeq = s.localSeq + 1) ∧ (t.txSeq = s.txSeq ∨ t.txSeq = s.txSeq + 1)

/-- A decode changes at most the record of the frame's source, and never an identity (43 R177 (c), (d), 10 R37 (a), (f)). -/
def Obligations.OnlyTheSourceChanges : Prop :=
  ∀ s t : State, exec .onReceive s = .next t →
    t.dev.map (·.identity) = s.dev.map (·.identity) ∧
    ∀ (k : Nat) (d : DeviceRecord), s.dev[k]? = some d → t.dev[k]? ≠ some d → d.identity.toList = t.dec.r.src

/-- The bytes of a frame are written without interleaving (41 R125, 20 R59): after a `send` or `send16_ack` that ended with
OK, the trace ends with an unbroken block of main-context writes from the first FIFO byte to the trigger; and after a row of
the decoder or the pump whose reply was not refused (43 R173) it holds such a block too. Only transactions of the interrupt
context stand before and after the block. Of `poll` and `ON_RECEIVE`, which may have no reply to send, `tx_seq` tells whether
one was sent. -/
def Obligations.SendIsNeverTorn : Prop :=
  (∀ (i : Instr) (s t : State), (∃ f p, i = .send f p ∨ i = .send16Ack f p) → exec i s = .next t → t.result.code = .ok →
    ∃ pre evs, t.bus = s.bus ++ pre ++ evs ∧ (∀ e ∈ pre, e.ctx = .irq) ∧ FrameTrace s.par.reg evs) ∧
  (∀ (i : Instr) (s t : State), i.mayReply = true → exec i s = .next t → NoReplyRefused s t →
    (i = .poll ∨ i = .onReceive → t.txSeq ≠ s.txSeq) →
    ∃ pre evs post, t.bus = s.bus ++ pre ++ evs ++ post ∧ (∀ e ∈ pre ++ post, e.ctx = .irq) ∧ FrameTrace s.par.reg evs)

/-- With a register map that satisfies its constraints no operation but a bus transaction itself is refused with
`E_BAD_BUS_ADDR`, no reply that a row of the decoder sends is, and no transaction of an interrupt row is: its trace runs to its end (40 R105); what happens with another
map is the model's choice (log entry 17). -/
def Obligations.WellFormedMapIsNeverRefused : Prop :=
  (∀ (i : Instr) (s t : State), s.par.wf = true → s.result.code ≠ .badBusAddr →
    (∀ a, i ≠ .srd a) → (∀ a v, i ≠ .swr a v) → (∀ a, i ≠ .lrd a) → (∀ a v, i ≠ .lwr a v) →
    exec i s = .next t → t.result.code ≠ .badBusAddr) ∧
  (∀ (i : Instr) (s t : State), s.par.wf = true → exec i s = .next t →
    ∃ new, t.out = s.out ++ new ∧ OutEvent.replyRefused .badBusAddr ∉ new) ∧
  (∀ s t : State, s.par.wf = true → exec .rxpath s = .next t → ∃ rx, t.bus = s.bus ++ rx ∧ RxTrace s.par.reg rx) ∧
  (∀ s t : State, s.par.wf = true → exec .txpath s = .next t → ∃ tx, t.bus = s.bus ++ tx ∧ TxTrace s.par.reg tx) ∧
  (∀ s t : State, s.par.wf = true → exec .irq s = .next t →
    ∃ (e : BusEvent) (rx tx : List BusEvent), t.bus = s.bus ++ e :: (rx ++ tx) ∧
      e.ctx = .irq ∧ e.dir = .read ∧ e.loc = s.par.reg.intstat ∧
      (if e.data.getLsbD s.par.reg.bRxif.val then RxTrace s.par.reg rx else rx = []) ∧
      (if e.data.getLsbD s.par.reg.bTxif.val then TxTrace s.par.reg tx else tx = []))

/-- Only a stuck bus ends a run: where no transaction is answered `stuck`, every main-context row started from IDLE ends in
a next state, whatever else happens meanwhile, and no row ends in a fault (00 R9, 70 R240). -/
def Obligations.OnlyAStuckBusFaults : Prop :=
  ∀ (i : Instr) (s : State), NeverSticks s →
    (∀ f, exec i s ≠ .fault f) ∧ (i.isIrqRow = false → s.mainCtl = .idle → ∃ t, exec i s = .next t)

/-- The valid bits never fall (10 R37 (b)). -/
def Obligations.ValidBitsStay : Prop :=
  ∀ s t : State, step s = .next t →
    (s.rxRec.valid = true → t.rxRec.valid = true) ∧ (s.txRec.valid = true → t.txRec.valid = true)

/-- The invariant holds after power-on with any configuration that satisfies its constraints. Its clause on the channel rests
on the model's reset value (log entry 6), `State.reset` on the model's configuration (log entry 5). -/
def Obligations.InvAtPowerOn : Prop :=
  (∀ p : Params, p.wf = true → Inv (State.powerOn p)) ∧ Inv State.reset

/-- Every step keeps the invariant (10 R37): the record's lengths fit its FrameControl, the identities are the whitelist, a
pending event has its record, the mask is off between operations, the memory is in canonical form. The channel's
reset value (log entry 6), the size of a step (log entry 1) and the memory's form (log entry 24) are the model's choices. -/
def Obligations.StepKeepsInv : Prop :=
  ∀ s t : State, Inv s → step s = .next t → Inv t

/-! ## Power-on and the step -/

/-- The values at power-on (10 R36), for every configuration. -/
def Obligations.PowerOnValues : Prop :=
  ∀ p : Params,
    let s := State.powerOn p
    s.rxRec.valid = false ∧ s.txRec.valid = false ∧ s.mainCtl = .idle ∧ s.irqCtl = .idle ∧ s.rxEvent = 0 ∧
    s.txEvent = 0 ∧ s.irqMask = false ∧ s.irqActive = false ∧ s.drv = .cold ∧ s.cfg.pan = 0xFFFF ∧
    s.cfg.short = 0xFFFF ∧ (∀ e, p.cfgEadr = some e → s.cfg.eadr = e ∧ s.cfg.eadrValid = true) ∧
    (p.cfgEadr = none → s.cfg.eadrValid = false) ∧ s.cfg.promiscuous = false ∧ s.cfg.panController = false ∧
    s.cfg.coordinator = false ∧ s.txSeq = 0 ∧ s.localSeq = 0 ∧ s.dev.length = p.whitelist.length ∧
    (∀ (i : Nat) (d : DeviceRecord), s.dev[i]? = some d →
      p.whitelist[i]? = some d.identity ∧ d.online = false ∧ d.sequence = 0) ∧
    s.rstN = true ∧ s.env.shortMem = [] ∧ s.env.longMem = []

/-- A step runs the decoded instruction: the host's command at the front of the queue, the row that either context has been
given, or the interrupt run the agenda starts; and it does so after `withFetchWord`. The size of a step, the
agenda and the placing of a word are the model's choices (log entries 1, 2, 15). -/
def Obligations.StepRunsTheDecoded : Prop :=
  (∀ (s : State) (bytes : List Byte) (rest : List (List Byte)) (i : Instr), Quiet s → s.mainCtl = .idle →
    s.irqCtl = .idle → s.hostq = bytes :: rest → decode s.par .host bytes = .ok i → step s = exec i (s.setHostq rest)) ∧
  (∀ (s : State) (i : Instr), Quiet s → s.irqCtl = .idle → s.mainCtl = .running i 0 →
    step s = exec i (s.setMainCtl .idle)) ∧
  (∀ (s : State) (i : Instr), s.irqCtl = .running i 0 → step s = exec i (s.setIrqCtl .idle)) ∧
  (∀ (s : State) (as : List Act), s.irqCtl = .idle → s.env.agenda = .startIrq :: as → entryCond s = true →
    step s = exec .irq (s.setAgenda as)) ∧
  (∀ (s : State) (nbits w : Nat) (i : Instr), decodeTableWord nbits w = some i →
    ∃ t, step (s.withFetchWord nbits w) = exec i t ∧ t.mainCtl = .idle ∧ t.irqCtl = .idle ∧ t.par = s.par ∧
      t.env = s.env ∧ t.hostq = s.hostq)

/-- A host command that is none is refused before anything else (60 R190, R197); that `step` says so and not `exec`, and
that a Boolean operand byte other than 0 and 1 is no command, are the model's choices (log entries 26, 13). -/
def Obligations.BadCommandRefused : Prop :=
  ∀ (s : State) (bytes : List Byte) (rest : List (List Byte)) (e : DecodeError), Quiet s → s.mainCtl = .idle →
    s.irqCtl = .idle → s.hostq = bytes :: rest → decodeHost bytes = .error e →
    step s = .next ((s.setHostq rest).setResult ⟨.badCommand, .none⟩)
end

