-- ==== Sys2Proof/Laws/Memory.lean ====
section
/-! SUPPORT. Laws/Memory.lean: the memory laws. A store is read back and leaves every other address alone; every operation
keeps the canonical form; the memory after power-on has it. -/

namespace Sys2Proof.Machine

theorem Memory.look_store_same (m : Memory) (a : Nat) (v : Byte) : Memory.look (Memory.store m a v) a = some v := by
  induction m with
  | nil => simp [Memory.store, Memory.look]
  | cons c rest ih =>
    obtain ⟨b, w⟩ := c
    simp only [Memory.store]
    split
    · simp [Memory.look]
    · split
      · simp [Memory.look]
      · simp_all [Memory.look]

theorem Memory.look_store_other (m : Memory) (a b : Nat) (v : Byte) (h : b ≠ a) :
    Memory.look (Memory.store m a v) b = Memory.look m b := by
  induction m with
  | nil => simp [Memory.store, Memory.look, h]
  | cons c rest ih =>
    obtain ⟨c, w⟩ := c
    simp only [Memory.store]
    split
    · simp [Memory.look, h]
    · split
      · next e => subst e; simp [Memory.look, h]
      · simp [Memory.look, ih]

theorem Memory.store_mem {m : Memory} {a : Nat} {v : Byte} {c : Host.Cell} (h : c ∈ Memory.store m a v) :
    c = (a, v) ∨ c ∈ m := by
  induction m with
  | nil => simp_all [Memory.store]
  | cons d rest ih =>
    obtain ⟨b, w⟩ := d
    simp only [Memory.store] at h
    split at h
    · simpa using h
    · split at h
      · simp only [List.mem_cons] at h ⊢; tauto
      · simp only [List.mem_cons] at h ⊢
        rcases h with h | h
        · exact .inr (.inl h)
        · rcases ih h with h | h
          · exact .inl h
          · exact .inr (.inr h)

/-- A store below the size keeps the canonical form. -/
theorem Memory.store_wf {size : Nat} {m : Memory} {a : Nat} (v : Byte) (ha : a < size) (h : Memory.wf size m = true) :
    Memory.wf size (Memory.store m a v) = true := by
  induction m with
  | nil => simp [Memory.store, Memory.wf, ha]
  | cons c rest ih =>
    obtain ⟨b, w⟩ := c
    simp only [Memory.wf, Bool.and_eq_true, decide_eq_true_eq, List.all_eq_true] at h
    obtain ⟨⟨hb, hall⟩, hrest⟩ := h
    simp only [Memory.store]
    split
    · next hab =>
      simp only [Memory.wf, Bool.and_eq_true, decide_eq_true_eq, List.all_eq_true, List.mem_cons]
      refine ⟨⟨ha, ?_⟩, ⟨hb, hall⟩, hrest⟩
      rintro x (rfl | hx)
      · exact hab
      · exact lt_trans hab (hall x hx)
    · split
      · next e =>
        subst e
        simp only [Memory.wf, Bool.and_eq_true, decide_eq_true_eq, List.all_eq_true]
        exact ⟨⟨ha, hall⟩, hrest⟩
      · simp only [Memory.wf, Bool.and_eq_true, decide_eq_true_eq, List.all_eq_true]
        refine ⟨⟨hb, fun x hx => ?_⟩, ih hrest⟩
        rcases Memory.store_mem hx with rfl | hx
        · simp only; omega
        · exact hall x hx

/-- Forgetting a window keeps the canonical form. -/
theorem Memory.forget_wf {size : Nat} {m : Memory} (base n : Nat) (h : Memory.wf size m = true) :
    Memory.wf size (Memory.forget m base n) = true := by
  induction m with
  | nil => rfl
  | cons c rest ih =>
    obtain ⟨b, w⟩ := c
    simp only [Memory.wf, Bool.and_eq_true, decide_eq_true_eq, List.all_eq_true] at h
    obtain ⟨⟨hb, hall⟩, hrest⟩ := h
    have ih := ih hrest
    unfold Memory.forget at ih ⊢
    rw [List.filter_cons]
    split
    · simp only [Memory.wf, Bool.and_eq_true, decide_eq_true_eq, List.all_eq_true]
      exact ⟨⟨hb, fun x hx => hall x (List.mem_of_mem_filter hx)⟩, ih⟩
    · exact ih

/-- Both spaces of the environment are in canonical form. -/
def Env.wf (e : Env) : Prop := Memory.wf 64 e.shortMem = true ∧ Memory.wf 1024 e.longMem = true

/-- The memory after power-on is in canonical form. -/
theorem reset_memory_wf : Env.wf State.reset.env := ⟨rfl, rfl⟩

theorem Env.poke_wf {e : Env} (l : Loc) (v : Byte) (h : Env.wf e) : Env.wf (e.poke l v) := by
  unfold Env.poke
  split
  · next hr =>
    obtain ⟨sp, a⟩ := l
    cases sp
    · exact ⟨Memory.store_wf v (of_decide_eq_true hr) h.1, h.2⟩
    · exact ⟨h.1, Memory.store_wf v (of_decide_eq_true hr) h.2⟩
  · exact h

theorem Env.pokeAll_wf {e : Env} (l : Loc) (vs : List Byte) (h : Env.wf e) : Env.wf (e.pokeAll l vs) := by
  induction vs generalizing e l with
  | nil => exact h
  | cons v vs ih => exact ih _ (Env.poke_wf l v h)

theorem Env.flushRx_wf {e : Env} (r : RegMap) (h : Env.wf e) : Env.wf (e.flushRx r) := by
  unfold Env.flushRx
  cases r.rxfifo.space
  · exact ⟨Memory.forget_wf _ _ h.1, h.2⟩
  · exact ⟨h.1, Memory.forget_wf _ _ h.2⟩

theorem Env.chipReset_wf (e : Env) : Env.wf e.chipReset := ⟨rfl, rfl⟩

theorem Env.driveLine_wf {e : Env} (h : Env.wf e) : Env.wf e.driveLine := h

theorem Env.enableCauses_wf {e : Env} (r : RegMap) (v : Byte) (h : Env.wf e) : Env.wf (e.enableCauses r v) := by
  unfold Env.enableCauses
  split <;> exact h

/-- A property that a store gives, and that every role of the location keeps, holds after a write. -/
theorem Env.write_gives {P : Env → Prop} (r : RegMap) (e : Env) (l : Loc) (v : Byte) (store : P (e.stored r l v))
    (reset : l = r.softrst → ∀ e, P e → P e.chipReset) (flush : l = r.rxflush → ∀ e, P e → P (e.flushRx r))
    (trigger : ∀ e, P e → P (e.trigger r v)) (switch : ∀ e, P e → P (e.switchRx r v))
    (rf : ∀ e, P e → P (e.resetRf r v)) (enable : ∀ e, P e → P (e.enableCauses r v)) (tune : ∀ e, P e → P (e.retune v)) :
    P (e.write r l v) := by
  have role : ∀ (e : Env) (l' : Loc) (f : Env → Env), P e → (l = l' → ∀ e, P e → P (f e)) → P (e.atRole l l' f) := by
    intro e l' f h hf
    unfold Env.atRole
    split
    · next hl => exact hf hl e h
    · exact h
  unfold Env.write
  refine role _ _ _ (role _ _ _ (role _ _ _ (role _ _ _ (role _ _ _ (role _ _ _ (role _ _ _ store reset) flush) ?_) ?_) ?_)
    ?_) ?_
  · exact fun _ => trigger
  · exact fun _ => switch
  · exact fun _ => rf
  · exact fun _ => enable
  · exact fun _ => tune

/-- Every write of the block keeps the canonical form. -/
theorem Env.write_wf {e : Env} (r : RegMap) (l : Loc) (v : Byte) (h : Env.wf e) : Env.wf (e.write r l v) :=
  Env.write_gives (P := Env.wf) r e l v (Env.poke_wf l v h) (fun _ e _ => Env.chipReset_wf e)
    (fun _ _ => Env.flushRx_wf r) (fun _ => id) (fun _ => id) (fun _ => id) (fun _ => Env.enableCauses_wf r v)
    (fun _ => id)

/-- Every move of the environment keeps the canonical form. -/
theorem Env.apply_wf {e : Env} (r : RegMap) (m : EnvMove) (h : Env.wf e) : Env.wf (e.apply r m) := by
  cases m with
  | rxFrame image =>
    simp only [Env.apply, Env.rxFrame]
    split
    · exact Env.pokeAll_wf r.rxfifo (image.take 130) h
    · exact h
  | txDone status => exact Env.poke_wf r.txstat status h
  | reads l answers => exact h
  | raise causes => exact h
  | line level => exact h
  | change l v => exact Env.poke_wf l v h
  | stick after => exact h

/-- A read changes nothing but the causes, the line, the scripts and the free-value counter. -/
theorem Env.read_frame (r : RegMap) (e : Env) (l : Loc) :
    (e.read r l).2 = { e with
      pending := (e.read r l).2.pending, irqLine := (e.read r l).2.irqLine, scripts := (e.read r l).2.scripts,
      draws := (e.read r l).2.draws } := by
  have ha : (e.answer r l).2 = { e with scripts := (e.answer r l).2.scripts, draws := (e.answer r l).2.draws } := by
    unfold Env.answer
    split
    · rfl
    · split
      · rfl
      · split <;> rfl
  unfold Env.read Env.afterRead
  rw [ha]
  split <;> rfl

/-- `e'` is `e` but for what a write of the block can change: the bytes, the state behind the roles of 20 R57, the line and
the free-value counter. -/
def Env.WriteFrame (e e' : Env) : Prop :=
  e' = { e with
    shortMem := e'.shortMem, longMem := e'.longMem, rxEnabled := e'.rxEnabled, imageLen := e'.imageLen,
    txInFlight := e'.txInFlight, attemptReported := e'.attemptReported, enabled := e'.enabled, tuned := e'.tuned, rfReset := e'.rfReset, irqLine := e'.irqLine, draws := e'.draws }

theorem Env.WriteFrame.trans {a b c : Env} (h : Env.WriteFrame a b) (k : Env.WriteFrame b c) : Env.WriteFrame a c := by
  unfold Env.WriteFrame at *
  rw [k, h]

theorem Env.setMem_frame (e : Env) (sp : Space) (m : Memory) : Env.WriteFrame e (e.setMem sp m) := by cases sp <;> rfl

theorem Env.poke_frame (e : Env) (l : Loc) (v : Byte) : Env.WriteFrame e (e.poke l v) := by
  unfold Env.poke
  split
  · exact Env.setMem_frame _ _ _
  · rfl

theorem Env.enableCauses_frame (r : RegMap) (e : Env) (v : Byte) : Env.WriteFrame e (e.enableCauses r v) := by
  unfold Env.enableCauses
  split <;> rfl

/-- What a write can change at all. -/
theorem Env.write_frame (r : RegMap) (e : Env) (l : Loc) (v : Byte) : Env.WriteFrame e (e.write r l v) :=
  Env.write_gives (P := Env.WriteFrame e) r e l v ((Env.poke_frame e l v).trans rfl) (fun _ _ h => h.trans rfl)
    (fun _ _ h => (h.trans (Env.setMem_frame _ _ _)).trans rfl) (fun _ h => h.trans rfl) (fun _ h => h.trans rfl)
    (fun _ h => h.trans rfl) (fun e h => h.trans (Env.enableCauses_frame r e v)) (fun _ h => h.trans rfl)

/-- With no cause pending a write leaves a low line low (20 R66 law (3)). -/
theorem Env.write_line_low (r : RegMap) (e : Env) (l : Loc) (v : Byte) (hp : e.pending = 0) (hl : e.irqLine = false) :
    (e.write r l v).pending = 0 ∧ (e.write r l v).irqLine = false := by
  have drive : ∀ e : Env, e.pending = 0 → e.driveLine.pending = 0 ∧ e.driveLine.irqLine = false :=
    fun e h => ⟨h, if_pos h⟩
  have store : (e.stored r l v).pending = 0 ∧ (e.stored r l v).irqLine = false := by
    unfold Env.stored Env.poke
    split
    · cases l.space <;> exact ⟨hp, hl⟩
    · exact ⟨hp, hl⟩
  have flush : ∀ e : Env, e.pending = 0 ∧ e.irqLine = false → (e.flushRx r).pending = 0 ∧ (e.flushRx r).irqLine = false := by
    intro e h
    unfold Env.flushRx
    cases r.rxfifo.space <;> exact h
  have enable : ∀ e : Env, e.pending = 0 → (e.enableCauses r v).pending = 0 ∧ (e.enableCauses r v).irqLine = false := by
    intro e h
    unfold Env.enableCauses
    split <;> exact drive _ h
  exact Env.write_gives (P := fun e => e.pending = 0 ∧ e.irqLine = false) r e l v store (fun _ _ h => drive _ h.1)
    (fun _ => flush) (fun _ => id) (fun _ => id) (fun _ => id) (fun e h => enable e h.1) (fun _ => id)

/-- A write to a plain location leaves the bytes as the store alone does. -/
theorem Env.peek_write (r : RegMap) (e : Env) (l l' : Loc) (v : Byte) (hs : l ≠ r.softrst) (hf : l ≠ r.rxflush) :
    (e.write r l v).peek l' = (e.poke l v).peek l' := by
  have enable : ∀ e' : Env, (e'.enableCauses r v).peek l' = e'.peek l' := by
    intro e'
    unfold Env.enableCauses
    split <;> rfl
  exact Env.write_gives (P := fun e' => e'.peek l' = (e.poke l v).peek l') r e l v rfl (fun h => absurd h hs)
    (fun h => absurd h hf) (fun _ => id) (fun _ => id) (fun _ => id) (fun e' h => (enable e').trans h) (fun _ => id)

/-- A write to a plain location leaves the image of a received frame in the RX FIFO, unless it lies in the window. -/
theorem Env.write_imageLen (r : RegMap) (e : Env) (l : Loc) (v : Byte) (hs : l ≠ r.softrst) (hf : l ≠ r.rxflush) :
    (e.write r l v).imageLen = if inRxFifo r l then 0 else e.imageLen := by
  have enable : ∀ e' : Env, (e'.enableCauses r v).imageLen = e'.imageLen := by
    intro e'
    unfold Env.enableCauses
    split <;> rfl
  exact Env.write_gives (P := fun e' => e'.imageLen = if inRxFifo r l then 0 else e.imageLen) r e l v rfl
    (fun h => absurd h hs) (fun h => absurd h hf) (fun _ => id) (fun _ => id) (fun _ => id) (fun e' h => (enable e').trans h) (fun _ => id)

/-- After a write, `A_TXSTAT` describes an attempt only if it did before and the write was not to it. -/
theorem Env.write_attemptReported (r : RegMap) (e : Env) (l : Loc) (v : Byte)
    (h : (e.write r l v).attemptReported = true) : e.attemptReported = true ∧ l ≠ r.txstat := by
  have enable : ∀ e' : Env, (e'.enableCauses r v).attemptReported = e'.attemptReported := by
    intro e'
    unfold Env.enableCauses
    split <;> rfl
  refine Env.write_gives (P := fun e' => e'.attemptReported = true → e.attemptReported = true ∧ l ≠ r.txstat) r e l v ?_ ?_ ?_ ?_
    (fun _ => id) (fun _ => id) (fun e' k h => k ((enable e').symm.trans h)) (fun _ => id) h
  · intro h
    simpa [Env.stored] using h
  · intro _ _ _ h
    cases h
  · intro _ e' k h
    refine k ?_
    unfold Env.flushRx at h
    cases hsp : r.rxfifo.space <;> rw [hsp] at h <;> exact h
  · intro e' k h
    exact k (Bool.and_eq_true _ _ ▸ h).1

/-- A write with no further effect stores its byte at its location. -/
theorem Env.peek_poke_same (e : Env) (l : Loc) (v : Byte) (h : l.inRange = true) : (e.poke l v).peek l = some v := by
  obtain ⟨sp, a⟩ := l
  cases sp <;> simp [Env.poke, h, Env.peek, Env.setMem, Env.mem, Memory.look_store_same]

/-- A store leaves every other location as it was. -/
theorem Env.peek_poke_other (e : Env) (l l' : Loc) (v : Byte) (h : l' ≠ l) : (e.poke l v).peek l' = e.peek l' := by
  unfold Env.poke
  split
  · obtain ⟨sp, a⟩ := l
    obtain ⟨sp', a'⟩ := l'
    cases sp <;> cases sp' <;> simp only [Env.peek, Env.setMem, Env.mem]
    all_goals
      refine Memory.look_store_other _ _ _ _ fun e => h ?_
      simp_all [BitVec.toNat_inj]
  · rfl

end Sys2Proof.Machine
end

