-- ==== Sys2Proof/Laws/State.lean ====
section
/-! SUPPORT. Laws/State.lean: one lemma per field per named update, so that no proof unfolds a record update. -/

namespace Sys2Proof.Machine.State

@[simp] theorem setRxRec_par (s : State) (x : RxRec) : (s.setRxRec x).par = s.par := rfl
@[simp] theorem setRxRec_rxRec (s : State) (x : RxRec) : (s.setRxRec x).rxRec = x := rfl
@[simp] theorem setRxRec_txRec (s : State) (x : RxRec) : (s.setRxRec x).txRec = s.txRec := rfl
@[simp] theorem setRxRec_mainCtl (s : State) (x : RxRec) : (s.setRxRec x).mainCtl = s.mainCtl := rfl
@[simp] theorem setRxRec_irqCtl (s : State) (x : RxRec) : (s.setRxRec x).irqCtl = s.irqCtl := rfl
@[simp] theorem setRxRec_rxEvent (s : State) (x : RxRec) : (s.setRxRec x).rxEvent = s.rxEvent := rfl
@[simp] theorem setRxRec_txEvent (s : State) (x : RxRec) : (s.setRxRec x).txEvent = s.txEvent := rfl
@[simp] theorem setRxRec_irqMask (s : State) (x : RxRec) : (s.setRxRec x).irqMask = s.irqMask := rfl
@[simp] theorem setRxRec_irqActive (s : State) (x : RxRec) : (s.setRxRec x).irqActive = s.irqActive := rfl
@[simp] theorem setRxRec_drv (s : State) (x : RxRec) : (s.setRxRec x).drv = s.drv := rfl
@[simp] theorem setRxRec_cfg (s : State) (x : RxRec) : (s.setRxRec x).cfg = s.cfg := rfl
@[simp] theorem setRxRec_txSeq (s : State) (x : RxRec) : (s.setRxRec x).txSeq = s.txSeq := rfl
@[simp] theorem setRxRec_localSeq (s : State) (x : RxRec) : (s.setRxRec x).localSeq = s.localSeq := rfl
@[simp] theorem setRxRec_dev (s : State) (x : RxRec) : (s.setRxRec x).dev = s.dev := rfl
@[simp] theorem setRxRec_rstN (s : State) (x : RxRec) : (s.setRxRec x).rstN = s.rstN := rfl
@[simp] theorem setRxRec_dec (s : State) (x : RxRec) : (s.setRxRec x).dec = s.dec := rfl
@[simp] theorem setRxRec_env (s : State) (x : RxRec) : (s.setRxRec x).env = s.env := rfl
@[simp] theorem setRxRec_hostq (s : State) (x : RxRec) : (s.setRxRec x).hostq = s.hostq := rfl
@[simp] theorem setRxRec_result (s : State) (x : RxRec) : (s.setRxRec x).result = s.result := rfl
@[simp] theorem setRxRec_bus (s : State) (x : RxRec) : (s.setRxRec x).bus = s.bus := rfl
@[simp] theorem setRxRec_pins (s : State) (x : RxRec) : (s.setRxRec x).pins = s.pins := rfl
@[simp] theorem setRxRec_out (s : State) (x : RxRec) : (s.setRxRec x).out = s.out := rfl

@[simp] theorem setTxRec_par (s : State) (x : TxRec) : (s.setTxRec x).par = s.par := rfl
@[simp] theorem setTxRec_rxRec (s : State) (x : TxRec) : (s.setTxRec x).rxRec = s.rxRec := rfl
@[simp] theorem setTxRec_txRec (s : State) (x : TxRec) : (s.setTxRec x).txRec = x := rfl
@[simp] theorem setTxRec_mainCtl (s : State) (x : TxRec) : (s.setTxRec x).mainCtl = s.mainCtl := rfl
@[simp] theorem setTxRec_irqCtl (s : State) (x : TxRec) : (s.setTxRec x).irqCtl = s.irqCtl := rfl
@[simp] theorem setTxRec_rxEvent (s : State) (x : TxRec) : (s.setTxRec x).rxEvent = s.rxEvent := rfl
@[simp] theorem setTxRec_txEvent (s : State) (x : TxRec) : (s.setTxRec x).txEvent = s.txEvent := rfl
@[simp] theorem setTxRec_irqMask (s : State) (x : TxRec) : (s.setTxRec x).irqMask = s.irqMask := rfl
@[simp] theorem setTxRec_irqActive (s : State) (x : TxRec) : (s.setTxRec x).irqActive = s.irqActive := rfl
@[simp] theorem setTxRec_drv (s : State) (x : TxRec) : (s.setTxRec x).drv = s.drv := rfl
@[simp] theorem setTxRec_cfg (s : State) (x : TxRec) : (s.setTxRec x).cfg = s.cfg := rfl
@[simp] theorem setTxRec_txSeq (s : State) (x : TxRec) : (s.setTxRec x).txSeq = s.txSeq := rfl
@[simp] theorem setTxRec_localSeq (s : State) (x : TxRec) : (s.setTxRec x).localSeq = s.localSeq := rfl
@[simp] theorem setTxRec_dev (s : State) (x : TxRec) : (s.setTxRec x).dev = s.dev := rfl
@[simp] theorem setTxRec_rstN (s : State) (x : TxRec) : (s.setTxRec x).rstN = s.rstN := rfl
@[simp] theorem setTxRec_dec (s : State) (x : TxRec) : (s.setTxRec x).dec = s.dec := rfl
@[simp] theorem setTxRec_env (s : State) (x : TxRec) : (s.setTxRec x).env = s.env := rfl
@[simp] theorem setTxRec_hostq (s : State) (x : TxRec) : (s.setTxRec x).hostq = s.hostq := rfl
@[simp] theorem setTxRec_result (s : State) (x : TxRec) : (s.setTxRec x).result = s.result := rfl
@[simp] theorem setTxRec_bus (s : State) (x : TxRec) : (s.setTxRec x).bus = s.bus := rfl
@[simp] theorem setTxRec_pins (s : State) (x : TxRec) : (s.setTxRec x).pins = s.pins := rfl
@[simp] theorem setTxRec_out (s : State) (x : TxRec) : (s.setTxRec x).out = s.out := rfl

@[simp] theorem setMainCtl_par (s : State) (x : Ctl) : (s.setMainCtl x).par = s.par := rfl
@[simp] theorem setMainCtl_rxRec (s : State) (x : Ctl) : (s.setMainCtl x).rxRec = s.rxRec := rfl
@[simp] theorem setMainCtl_txRec (s : State) (x : Ctl) : (s.setMainCtl x).txRec = s.txRec := rfl
@[simp] theorem setMainCtl_mainCtl (s : State) (x : Ctl) : (s.setMainCtl x).mainCtl = x := rfl
@[simp] theorem setMainCtl_irqCtl (s : State) (x : Ctl) : (s.setMainCtl x).irqCtl = s.irqCtl := rfl
@[simp] theorem setMainCtl_rxEvent (s : State) (x : Ctl) : (s.setMainCtl x).rxEvent = s.rxEvent := rfl
@[simp] theorem setMainCtl_txEvent (s : State) (x : Ctl) : (s.setMainCtl x).txEvent = s.txEvent := rfl
@[simp] theorem setMainCtl_irqMask (s : State) (x : Ctl) : (s.setMainCtl x).irqMask = s.irqMask := rfl
@[simp] theorem setMainCtl_irqActive (s : State) (x : Ctl) : (s.setMainCtl x).irqActive = s.irqActive := rfl
@[simp] theorem setMainCtl_drv (s : State) (x : Ctl) : (s.setMainCtl x).drv = s.drv := rfl
@[simp] theorem setMainCtl_cfg (s : State) (x : Ctl) : (s.setMainCtl x).cfg = s.cfg := rfl
@[simp] theorem setMainCtl_txSeq (s : State) (x : Ctl) : (s.setMainCtl x).txSeq = s.txSeq := rfl
@[simp] theorem setMainCtl_localSeq (s : State) (x : Ctl) : (s.setMainCtl x).localSeq = s.localSeq := rfl
@[simp] theorem setMainCtl_dev (s : State) (x : Ctl) : (s.setMainCtl x).dev = s.dev := rfl
@[simp] theorem setMainCtl_rstN (s : State) (x : Ctl) : (s.setMainCtl x).rstN = s.rstN := rfl
@[simp] theorem setMainCtl_dec (s : State) (x : Ctl) : (s.setMainCtl x).dec = s.dec := rfl
@[simp] theorem setMainCtl_env (s : State) (x : Ctl) : (s.setMainCtl x).env = s.env := rfl
@[simp] theorem setMainCtl_hostq (s : State) (x : Ctl) : (s.setMainCtl x).hostq = s.hostq := rfl
@[simp] theorem setMainCtl_result (s : State) (x : Ctl) : (s.setMainCtl x).result = s.result := rfl
@[simp] theorem setMainCtl_bus (s : State) (x : Ctl) : (s.setMainCtl x).bus = s.bus := rfl
@[simp] theorem setMainCtl_pins (s : State) (x : Ctl) : (s.setMainCtl x).pins = s.pins := rfl
@[simp] theorem setMainCtl_out (s : State) (x : Ctl) : (s.setMainCtl x).out = s.out := rfl

@[simp] theorem setIrqCtl_par (s : State) (x : Ctl) : (s.setIrqCtl x).par = s.par := rfl
@[simp] theorem setIrqCtl_rxRec (s : State) (x : Ctl) : (s.setIrqCtl x).rxRec = s.rxRec := rfl
@[simp] theorem setIrqCtl_txRec (s : State) (x : Ctl) : (s.setIrqCtl x).txRec = s.txRec := rfl
@[simp] theorem setIrqCtl_mainCtl (s : State) (x : Ctl) : (s.setIrqCtl x).mainCtl = s.mainCtl := rfl
@[simp] theorem setIrqCtl_irqCtl (s : State) (x : Ctl) : (s.setIrqCtl x).irqCtl = x := rfl
@[simp] theorem setIrqCtl_rxEvent (s : State) (x : Ctl) : (s.setIrqCtl x).rxEvent = s.rxEvent := rfl
@[simp] theorem setIrqCtl_txEvent (s : State) (x : Ctl) : (s.setIrqCtl x).txEvent = s.txEvent := rfl
@[simp] theorem setIrqCtl_irqMask (s : State) (x : Ctl) : (s.setIrqCtl x).irqMask = s.irqMask := rfl
@[simp] theorem setIrqCtl_irqActive (s : State) (x : Ctl) : (s.setIrqCtl x).irqActive = s.irqActive := rfl
@[simp] theorem setIrqCtl_drv (s : State) (x : Ctl) : (s.setIrqCtl x).drv = s.drv := rfl
@[simp] theorem setIrqCtl_cfg (s : State) (x : Ctl) : (s.setIrqCtl x).cfg = s.cfg := rfl
@[simp] theorem setIrqCtl_txSeq (s : State) (x : Ctl) : (s.setIrqCtl x).txSeq = s.txSeq := rfl
@[simp] theorem setIrqCtl_localSeq (s : State) (x : Ctl) : (s.setIrqCtl x).localSeq = s.localSeq := rfl
@[simp] theorem setIrqCtl_dev (s : State) (x : Ctl) : (s.setIrqCtl x).dev = s.dev := rfl
@[simp] theorem setIrqCtl_rstN (s : State) (x : Ctl) : (s.setIrqCtl x).rstN = s.rstN := rfl
@[simp] theorem setIrqCtl_dec (s : State) (x : Ctl) : (s.setIrqCtl x).dec = s.dec := rfl
@[simp] theorem setIrqCtl_env (s : State) (x : Ctl) : (s.setIrqCtl x).env = s.env := rfl
@[simp] theorem setIrqCtl_hostq (s : State) (x : Ctl) : (s.setIrqCtl x).hostq = s.hostq := rfl
@[simp] theorem setIrqCtl_result (s : State) (x : Ctl) : (s.setIrqCtl x).result = s.result := rfl
@[simp] theorem setIrqCtl_bus (s : State) (x : Ctl) : (s.setIrqCtl x).bus = s.bus := rfl
@[simp] theorem setIrqCtl_pins (s : State) (x : Ctl) : (s.setIrqCtl x).pins = s.pins := rfl
@[simp] theorem setIrqCtl_out (s : State) (x : Ctl) : (s.setIrqCtl x).out = s.out := rfl

@[simp] theorem setRxEvent_par (s : State) (x : Byte) : (s.setRxEvent x).par = s.par := rfl
@[simp] theorem setRxEvent_rxRec (s : State) (x : Byte) : (s.setRxEvent x).rxRec = s.rxRec := rfl
@[simp] theorem setRxEvent_txRec (s : State) (x : Byte) : (s.setRxEvent x).txRec = s.txRec := rfl
@[simp] theorem setRxEvent_mainCtl (s : State) (x : Byte) : (s.setRxEvent x).mainCtl = s.mainCtl := rfl
@[simp] theorem setRxEvent_irqCtl (s : State) (x : Byte) : (s.setRxEvent x).irqCtl = s.irqCtl := rfl
@[simp] theorem setRxEvent_rxEvent (s : State) (x : Byte) : (s.setRxEvent x).rxEvent = x := rfl
@[simp] theorem setRxEvent_txEvent (s : State) (x : Byte) : (s.setRxEvent x).txEvent = s.txEvent := rfl
@[simp] theorem setRxEvent_irqMask (s : State) (x : Byte) : (s.setRxEvent x).irqMask = s.irqMask := rfl
@[simp] theorem setRxEvent_irqActive (s : State) (x : Byte) : (s.setRxEvent x).irqActive = s.irqActive := rfl
@[simp] theorem setRxEvent_drv (s : State) (x : Byte) : (s.setRxEvent x).drv = s.drv := rfl
@[simp] theorem setRxEvent_cfg (s : State) (x : Byte) : (s.setRxEvent x).cfg = s.cfg := rfl
@[simp] theorem setRxEvent_txSeq (s : State) (x : Byte) : (s.setRxEvent x).txSeq = s.txSeq := rfl
@[simp] theorem setRxEvent_localSeq (s : State) (x : Byte) : (s.setRxEvent x).localSeq = s.localSeq := rfl
@[simp] theorem setRxEvent_dev (s : State) (x : Byte) : (s.setRxEvent x).dev = s.dev := rfl
@[simp] theorem setRxEvent_rstN (s : State) (x : Byte) : (s.setRxEvent x).rstN = s.rstN := rfl
@[simp] theorem setRxEvent_dec (s : State) (x : Byte) : (s.setRxEvent x).dec = s.dec := rfl
@[simp] theorem setRxEvent_env (s : State) (x : Byte) : (s.setRxEvent x).env = s.env := rfl
@[simp] theorem setRxEvent_hostq (s : State) (x : Byte) : (s.setRxEvent x).hostq = s.hostq := rfl
@[simp] theorem setRxEvent_result (s : State) (x : Byte) : (s.setRxEvent x).result = s.result := rfl
@[simp] theorem setRxEvent_bus (s : State) (x : Byte) : (s.setRxEvent x).bus = s.bus := rfl
@[simp] theorem setRxEvent_pins (s : State) (x : Byte) : (s.setRxEvent x).pins = s.pins := rfl
@[simp] theorem setRxEvent_out (s : State) (x : Byte) : (s.setRxEvent x).out = s.out := rfl

@[simp] theorem setTxEvent_par (s : State) (x : Byte) : (s.setTxEvent x).par = s.par := rfl
@[simp] theorem setTxEvent_rxRec (s : State) (x : Byte) : (s.setTxEvent x).rxRec = s.rxRec := rfl
@[simp] theorem setTxEvent_txRec (s : State) (x : Byte) : (s.setTxEvent x).txRec = s.txRec := rfl
@[simp] theorem setTxEvent_mainCtl (s : State) (x : Byte) : (s.setTxEvent x).mainCtl = s.mainCtl := rfl
@[simp] theorem setTxEvent_irqCtl (s : State) (x : Byte) : (s.setTxEvent x).irqCtl = s.irqCtl := rfl
@[simp] theorem setTxEvent_rxEvent (s : State) (x : Byte) : (s.setTxEvent x).rxEvent = s.rxEvent := rfl
@[simp] theorem setTxEvent_txEvent (s : State) (x : Byte) : (s.setTxEvent x).txEvent = x := rfl
@[simp] theorem setTxEvent_irqMask (s : State) (x : Byte) : (s.setTxEvent x).irqMask = s.irqMask := rfl
@[simp] theorem setTxEvent_irqActive (s : State) (x : Byte) : (s.setTxEvent x).irqActive = s.irqActive := rfl
@[simp] theorem setTxEvent_drv (s : State) (x : Byte) : (s.setTxEvent x).drv = s.drv := rfl
@[simp] theorem setTxEvent_cfg (s : State) (x : Byte) : (s.setTxEvent x).cfg = s.cfg := rfl
@[simp] theorem setTxEvent_txSeq (s : State) (x : Byte) : (s.setTxEvent x).txSeq = s.txSeq := rfl
@[simp] theorem setTxEvent_localSeq (s : State) (x : Byte) : (s.setTxEvent x).localSeq = s.localSeq := rfl
@[simp] theorem setTxEvent_dev (s : State) (x : Byte) : (s.setTxEvent x).dev = s.dev := rfl
@[simp] theorem setTxEvent_rstN (s : State) (x : Byte) : (s.setTxEvent x).rstN = s.rstN := rfl
@[simp] theorem setTxEvent_dec (s : State) (x : Byte) : (s.setTxEvent x).dec = s.dec := rfl
@[simp] theorem setTxEvent_env (s : State) (x : Byte) : (s.setTxEvent x).env = s.env := rfl
@[simp] theorem setTxEvent_hostq (s : State) (x : Byte) : (s.setTxEvent x).hostq = s.hostq := rfl
@[simp] theorem setTxEvent_result (s : State) (x : Byte) : (s.setTxEvent x).result = s.result := rfl
@[simp] theorem setTxEvent_bus (s : State) (x : Byte) : (s.setTxEvent x).bus = s.bus := rfl
@[simp] theorem setTxEvent_pins (s : State) (x : Byte) : (s.setTxEvent x).pins = s.pins := rfl
@[simp] theorem setTxEvent_out (s : State) (x : Byte) : (s.setTxEvent x).out = s.out := rfl

@[simp] theorem setIrqMask_par (s : State) (x : Bool) : (s.setIrqMask x).par = s.par := rfl
@[simp] theorem setIrqMask_rxRec (s : State) (x : Bool) : (s.setIrqMask x).rxRec = s.rxRec := rfl
@[simp] theorem setIrqMask_txRec (s : State) (x : Bool) : (s.setIrqMask x).txRec = s.txRec := rfl
@[simp] theorem setIrqMask_mainCtl (s : State) (x : Bool) : (s.setIrqMask x).mainCtl = s.mainCtl := rfl
@[simp] theorem setIrqMask_irqCtl (s : State) (x : Bool) : (s.setIrqMask x).irqCtl = s.irqCtl := rfl
@[simp] theorem setIrqMask_rxEvent (s : State) (x : Bool) : (s.setIrqMask x).rxEvent = s.rxEvent := rfl
@[simp] theorem setIrqMask_txEvent (s : State) (x : Bool) : (s.setIrqMask x).txEvent = s.txEvent := rfl
@[simp] theorem setIrqMask_irqMask (s : State) (x : Bool) : (s.setIrqMask x).irqMask = x := rfl
@[simp] theorem setIrqMask_irqActive (s : State) (x : Bool) : (s.setIrqMask x).irqActive = s.irqActive := rfl
@[simp] theorem setIrqMask_drv (s : State) (x : Bool) : (s.setIrqMask x).drv = s.drv := rfl
@[simp] theorem setIrqMask_cfg (s : State) (x : Bool) : (s.setIrqMask x).cfg = s.cfg := rfl
@[simp] theorem setIrqMask_txSeq (s : State) (x : Bool) : (s.setIrqMask x).txSeq = s.txSeq := rfl
@[simp] theorem setIrqMask_localSeq (s : State) (x : Bool) : (s.setIrqMask x).localSeq = s.localSeq := rfl
@[simp] theorem setIrqMask_dev (s : State) (x : Bool) : (s.setIrqMask x).dev = s.dev := rfl
@[simp] theorem setIrqMask_rstN (s : State) (x : Bool) : (s.setIrqMask x).rstN = s.rstN := rfl
@[simp] theorem setIrqMask_dec (s : State) (x : Bool) : (s.setIrqMask x).dec = s.dec := rfl
@[simp] theorem setIrqMask_env (s : State) (x : Bool) : (s.setIrqMask x).env = s.env := rfl
@[simp] theorem setIrqMask_hostq (s : State) (x : Bool) : (s.setIrqMask x).hostq = s.hostq := rfl
@[simp] theorem setIrqMask_result (s : State) (x : Bool) : (s.setIrqMask x).result = s.result := rfl
@[simp] theorem setIrqMask_bus (s : State) (x : Bool) : (s.setIrqMask x).bus = s.bus := rfl
@[simp] theorem setIrqMask_pins (s : State) (x : Bool) : (s.setIrqMask x).pins = s.pins := rfl
@[simp] theorem setIrqMask_out (s : State) (x : Bool) : (s.setIrqMask x).out = s.out := rfl

@[simp] theorem setIrqActive_par (s : State) (x : Bool) : (s.setIrqActive x).par = s.par := rfl
@[simp] theorem setIrqActive_rxRec (s : State) (x : Bool) : (s.setIrqActive x).rxRec = s.rxRec := rfl
@[simp] theorem setIrqActive_txRec (s : State) (x : Bool) : (s.setIrqActive x).txRec = s.txRec := rfl
@[simp] theorem setIrqActive_mainCtl (s : State) (x : Bool) : (s.setIrqActive x).mainCtl = s.mainCtl := rfl
@[simp] theorem setIrqActive_irqCtl (s : State) (x : Bool) : (s.setIrqActive x).irqCtl = s.irqCtl := rfl
@[simp] theorem setIrqActive_rxEvent (s : State) (x : Bool) : (s.setIrqActive x).rxEvent = s.rxEvent := rfl
@[simp] theorem setIrqActive_txEvent (s : State) (x : Bool) : (s.setIrqActive x).txEvent = s.txEvent := rfl
@[simp] theorem setIrqActive_irqMask (s : State) (x : Bool) : (s.setIrqActive x).irqMask = s.irqMask := rfl
@[simp] theorem setIrqActive_irqActive (s : State) (x : Bool) : (s.setIrqActive x).irqActive = x := rfl
@[simp] theorem setIrqActive_drv (s : State) (x : Bool) : (s.setIrqActive x).drv = s.drv := rfl
@[simp] theorem setIrqActive_cfg (s : State) (x : Bool) : (s.setIrqActive x).cfg = s.cfg := rfl
@[simp] theorem setIrqActive_txSeq (s : State) (x : Bool) : (s.setIrqActive x).txSeq = s.txSeq := rfl
@[simp] theorem setIrqActive_localSeq (s : State) (x : Bool) : (s.setIrqActive x).localSeq = s.localSeq := rfl
@[simp] theorem setIrqActive_dev (s : State) (x : Bool) : (s.setIrqActive x).dev = s.dev := rfl
@[simp] theorem setIrqActive_rstN (s : State) (x : Bool) : (s.setIrqActive x).rstN = s.rstN := rfl
@[simp] theorem setIrqActive_dec (s : State) (x : Bool) : (s.setIrqActive x).dec = s.dec := rfl
@[simp] theorem setIrqActive_env (s : State) (x : Bool) : (s.setIrqActive x).env = s.env := rfl
@[simp] theorem setIrqActive_hostq (s : State) (x : Bool) : (s.setIrqActive x).hostq = s.hostq := rfl
@[simp] theorem setIrqActive_result (s : State) (x : Bool) : (s.setIrqActive x).result = s.result := rfl
@[simp] theorem setIrqActive_bus (s : State) (x : Bool) : (s.setIrqActive x).bus = s.bus := rfl
@[simp] theorem setIrqActive_pins (s : State) (x : Bool) : (s.setIrqActive x).pins = s.pins := rfl
@[simp] theorem setIrqActive_out (s : State) (x : Bool) : (s.setIrqActive x).out = s.out := rfl

@[simp] theorem setDrv_par (s : State) (x : DrvStatus) : (s.setDrv x).par = s.par := rfl
@[simp] theorem setDrv_rxRec (s : State) (x : DrvStatus) : (s.setDrv x).rxRec = s.rxRec := rfl
@[simp] theorem setDrv_txRec (s : State) (x : DrvStatus) : (s.setDrv x).txRec = s.txRec := rfl
@[simp] theorem setDrv_mainCtl (s : State) (x : DrvStatus) : (s.setDrv x).mainCtl = s.mainCtl := rfl
@[simp] theorem setDrv_irqCtl (s : State) (x : DrvStatus) : (s.setDrv x).irqCtl = s.irqCtl := rfl
@[simp] theorem setDrv_rxEvent (s : State) (x : DrvStatus) : (s.setDrv x).rxEvent = s.rxEvent := rfl
@[simp] theorem setDrv_txEvent (s : State) (x : DrvStatus) : (s.setDrv x).txEvent = s.txEvent := rfl
@[simp] theorem setDrv_irqMask (s : State) (x : DrvStatus) : (s.setDrv x).irqMask = s.irqMask := rfl
@[simp] theorem setDrv_irqActive (s : State) (x : DrvStatus) : (s.setDrv x).irqActive = s.irqActive := rfl
@[simp] theorem setDrv_drv (s : State) (x : DrvStatus) : (s.setDrv x).drv = x := rfl
@[simp] theorem setDrv_cfg (s : State) (x : DrvStatus) : (s.setDrv x).cfg = s.cfg := rfl
@[simp] theorem setDrv_txSeq (s : State) (x : DrvStatus) : (s.setDrv x).txSeq = s.txSeq := rfl
@[simp] theorem setDrv_localSeq (s : State) (x : DrvStatus) : (s.setDrv x).localSeq = s.localSeq := rfl
@[simp] theorem setDrv_dev (s : State) (x : DrvStatus) : (s.setDrv x).dev = s.dev := rfl
@[simp] theorem setDrv_rstN (s : State) (x : DrvStatus) : (s.setDrv x).rstN = s.rstN := rfl
@[simp] theorem setDrv_dec (s : State) (x : DrvStatus) : (s.setDrv x).dec = s.dec := rfl
@[simp] theorem setDrv_env (s : State) (x : DrvStatus) : (s.setDrv x).env = s.env := rfl
@[simp] theorem setDrv_hostq (s : State) (x : DrvStatus) : (s.setDrv x).hostq = s.hostq := rfl
@[simp] theorem setDrv_result (s : State) (x : DrvStatus) : (s.setDrv x).result = s.result := rfl
@[simp] theorem setDrv_bus (s : State) (x : DrvStatus) : (s.setDrv x).bus = s.bus := rfl
@[simp] theorem setDrv_pins (s : State) (x : DrvStatus) : (s.setDrv x).pins = s.pins := rfl
@[simp] theorem setDrv_out (s : State) (x : DrvStatus) : (s.setDrv x).out = s.out := rfl

@[simp] theorem setCfg_par (s : State) (x : RadioConfig) : (s.setCfg x).par = s.par := rfl
@[simp] theorem setCfg_rxRec (s : State) (x : RadioConfig) : (s.setCfg x).rxRec = s.rxRec := rfl
@[simp] theorem setCfg_txRec (s : State) (x : RadioConfig) : (s.setCfg x).txRec = s.txRec := rfl
@[simp] theorem setCfg_mainCtl (s : State) (x : RadioConfig) : (s.setCfg x).mainCtl = s.mainCtl := rfl
@[simp] theorem setCfg_irqCtl (s : State) (x : RadioConfig) : (s.setCfg x).irqCtl = s.irqCtl := rfl
@[simp] theorem setCfg_rxEvent (s : State) (x : RadioConfig) : (s.setCfg x).rxEvent = s.rxEvent := rfl
@[simp] theorem setCfg_txEvent (s : State) (x : RadioConfig) : (s.setCfg x).txEvent = s.txEvent := rfl
@[simp] theorem setCfg_irqMask (s : State) (x : RadioConfig) : (s.setCfg x).irqMask = s.irqMask := rfl
@[simp] theorem setCfg_irqActive (s : State) (x : RadioConfig) : (s.setCfg x).irqActive = s.irqActive := rfl
@[simp] theorem setCfg_drv (s : State) (x : RadioConfig) : (s.setCfg x).drv = s.drv := rfl
@[simp] theorem setCfg_cfg (s : State) (x : RadioConfig) : (s.setCfg x).cfg = x := rfl
@[simp] theorem setCfg_txSeq (s : State) (x : RadioConfig) : (s.setCfg x).txSeq = s.txSeq := rfl
@[simp] theorem setCfg_localSeq (s : State) (x : RadioConfig) : (s.setCfg x).localSeq = s.localSeq := rfl
@[simp] theorem setCfg_dev (s : State) (x : RadioConfig) : (s.setCfg x).dev = s.dev := rfl
@[simp] theorem setCfg_rstN (s : State) (x : RadioConfig) : (s.setCfg x).rstN = s.rstN := rfl
@[simp] theorem setCfg_dec (s : State) (x : RadioConfig) : (s.setCfg x).dec = s.dec := rfl
@[simp] theorem setCfg_env (s : State) (x : RadioConfig) : (s.setCfg x).env = s.env := rfl
@[simp] theorem setCfg_hostq (s : State) (x : RadioConfig) : (s.setCfg x).hostq = s.hostq := rfl
@[simp] theorem setCfg_result (s : State) (x : RadioConfig) : (s.setCfg x).result = s.result := rfl
@[simp] theorem setCfg_bus (s : State) (x : RadioConfig) : (s.setCfg x).bus = s.bus := rfl
@[simp] theorem setCfg_pins (s : State) (x : RadioConfig) : (s.setCfg x).pins = s.pins := rfl
@[simp] theorem setCfg_out (s : State) (x : RadioConfig) : (s.setCfg x).out = s.out := rfl

@[simp] theorem setTxSeq_par (s : State) (x : Byte) : (s.setTxSeq x).par = s.par := rfl
@[simp] theorem setTxSeq_rxRec (s : State) (x : Byte) : (s.setTxSeq x).rxRec = s.rxRec := rfl
@[simp] theorem setTxSeq_txRec (s : State) (x : Byte) : (s.setTxSeq x).txRec = s.txRec := rfl
@[simp] theorem setTxSeq_mainCtl (s : State) (x : Byte) : (s.setTxSeq x).mainCtl = s.mainCtl := rfl
@[simp] theorem setTxSeq_irqCtl (s : State) (x : Byte) : (s.setTxSeq x).irqCtl = s.irqCtl := rfl
@[simp] theorem setTxSeq_rxEvent (s : State) (x : Byte) : (s.setTxSeq x).rxEvent = s.rxEvent := rfl
@[simp] theorem setTxSeq_txEvent (s : State) (x : Byte) : (s.setTxSeq x).txEvent = s.txEvent := rfl
@[simp] theorem setTxSeq_irqMask (s : State) (x : Byte) : (s.setTxSeq x).irqMask = s.irqMask := rfl
@[simp] theorem setTxSeq_irqActive (s : State) (x : Byte) : (s.setTxSeq x).irqActive = s.irqActive := rfl
@[simp] theorem setTxSeq_drv (s : State) (x : Byte) : (s.setTxSeq x).drv = s.drv := rfl
@[simp] theorem setTxSeq_cfg (s : State) (x : Byte) : (s.setTxSeq x).cfg = s.cfg := rfl
@[simp] theorem setTxSeq_txSeq (s : State) (x : Byte) : (s.setTxSeq x).txSeq = x := rfl
@[simp] theorem setTxSeq_localSeq (s : State) (x : Byte) : (s.setTxSeq x).localSeq = s.localSeq := rfl
@[simp] theorem setTxSeq_dev (s : State) (x : Byte) : (s.setTxSeq x).dev = s.dev := rfl
@[simp] theorem setTxSeq_rstN (s : State) (x : Byte) : (s.setTxSeq x).rstN = s.rstN := rfl
@[simp] theorem setTxSeq_dec (s : State) (x : Byte) : (s.setTxSeq x).dec = s.dec := rfl
@[simp] theorem setTxSeq_env (s : State) (x : Byte) : (s.setTxSeq x).env = s.env := rfl
@[simp] theorem setTxSeq_hostq (s : State) (x : Byte) : (s.setTxSeq x).hostq = s.hostq := rfl
@[simp] theorem setTxSeq_result (s : State) (x : Byte) : (s.setTxSeq x).result = s.result := rfl
@[simp] theorem setTxSeq_bus (s : State) (x : Byte) : (s.setTxSeq x).bus = s.bus := rfl
@[simp] theorem setTxSeq_pins (s : State) (x : Byte) : (s.setTxSeq x).pins = s.pins := rfl
@[simp] theorem setTxSeq_out (s : State) (x : Byte) : (s.setTxSeq x).out = s.out := rfl

@[simp] theorem setLocalSeq_par (s : State) (x : Byte) : (s.setLocalSeq x).par = s.par := rfl
@[simp] theorem setLocalSeq_rxRec (s : State) (x : Byte) : (s.setLocalSeq x).rxRec = s.rxRec := rfl
@[simp] theorem setLocalSeq_txRec (s : State) (x : Byte) : (s.setLocalSeq x).txRec = s.txRec := rfl
@[simp] theorem setLocalSeq_mainCtl (s : State) (x : Byte) : (s.setLocalSeq x).mainCtl = s.mainCtl := rfl
@[simp] theorem setLocalSeq_irqCtl (s : State) (x : Byte) : (s.setLocalSeq x).irqCtl = s.irqCtl := rfl
@[simp] theorem setLocalSeq_rxEvent (s : State) (x : Byte) : (s.setLocalSeq x).rxEvent = s.rxEvent := rfl
@[simp] theorem setLocalSeq_txEvent (s : State) (x : Byte) : (s.setLocalSeq x).txEvent = s.txEvent := rfl
@[simp] theorem setLocalSeq_irqMask (s : State) (x : Byte) : (s.setLocalSeq x).irqMask = s.irqMask := rfl
@[simp] theorem setLocalSeq_irqActive (s : State) (x : Byte) : (s.setLocalSeq x).irqActive = s.irqActive := rfl
@[simp] theorem setLocalSeq_drv (s : State) (x : Byte) : (s.setLocalSeq x).drv = s.drv := rfl
@[simp] theorem setLocalSeq_cfg (s : State) (x : Byte) : (s.setLocalSeq x).cfg = s.cfg := rfl
@[simp] theorem setLocalSeq_txSeq (s : State) (x : Byte) : (s.setLocalSeq x).txSeq = s.txSeq := rfl
@[simp] theorem setLocalSeq_localSeq (s : State) (x : Byte) : (s.setLocalSeq x).localSeq = x := rfl
@[simp] theorem setLocalSeq_dev (s : State) (x : Byte) : (s.setLocalSeq x).dev = s.dev := rfl
@[simp] theorem setLocalSeq_rstN (s : State) (x : Byte) : (s.setLocalSeq x).rstN = s.rstN := rfl
@[simp] theorem setLocalSeq_dec (s : State) (x : Byte) : (s.setLocalSeq x).dec = s.dec := rfl
@[simp] theorem setLocalSeq_env (s : State) (x : Byte) : (s.setLocalSeq x).env = s.env := rfl
@[simp] theorem setLocalSeq_hostq (s : State) (x : Byte) : (s.setLocalSeq x).hostq = s.hostq := rfl
@[simp] theorem setLocalSeq_result (s : State) (x : Byte) : (s.setLocalSeq x).result = s.result := rfl
@[simp] theorem setLocalSeq_bus (s : State) (x : Byte) : (s.setLocalSeq x).bus = s.bus := rfl
@[simp] theorem setLocalSeq_pins (s : State) (x : Byte) : (s.setLocalSeq x).pins = s.pins := rfl
@[simp] theorem setLocalSeq_out (s : State) (x : Byte) : (s.setLocalSeq x).out = s.out := rfl

@[simp] theorem setDev_par (s : State) (x : List DeviceRecord) : (s.setDev x).par = s.par := rfl
@[simp] theorem setDev_rxRec (s : State) (x : List DeviceRecord) : (s.setDev x).rxRec = s.rxRec := rfl
@[simp] theorem setDev_txRec (s : State) (x : List DeviceRecord) : (s.setDev x).txRec = s.txRec := rfl
@[simp] theorem setDev_mainCtl (s : State) (x : List DeviceRecord) : (s.setDev x).mainCtl = s.mainCtl := rfl
@[simp] theorem setDev_irqCtl (s : State) (x : List DeviceRecord) : (s.setDev x).irqCtl = s.irqCtl := rfl
@[simp] theorem setDev_rxEvent (s : State) (x : List DeviceRecord) : (s.setDev x).rxEvent = s.rxEvent := rfl
@[simp] theorem setDev_txEvent (s : State) (x : List DeviceRecord) : (s.setDev x).txEvent = s.txEvent := rfl
@[simp] theorem setDev_irqMask (s : State) (x : List DeviceRecord) : (s.setDev x).irqMask = s.irqMask := rfl
@[simp] theorem setDev_irqActive (s : State) (x : List DeviceRecord) : (s.setDev x).irqActive = s.irqActive := rfl
@[simp] theorem setDev_drv (s : State) (x : List DeviceRecord) : (s.setDev x).drv = s.drv := rfl
@[simp] theorem setDev_cfg (s : State) (x : List DeviceRecord) : (s.setDev x).cfg = s.cfg := rfl
@[simp] theorem setDev_txSeq (s : State) (x : List DeviceRecord) : (s.setDev x).txSeq = s.txSeq := rfl
@[simp] theorem setDev_localSeq (s : State) (x : List DeviceRecord) : (s.setDev x).localSeq = s.localSeq := rfl
@[simp] theorem setDev_dev (s : State) (x : List DeviceRecord) : (s.setDev x).dev = x := rfl
@[simp] theorem setDev_rstN (s : State) (x : List DeviceRecord) : (s.setDev x).rstN = s.rstN := rfl
@[simp] theorem setDev_dec (s : State) (x : List DeviceRecord) : (s.setDev x).dec = s.dec := rfl
@[simp] theorem setDev_env (s : State) (x : List DeviceRecord) : (s.setDev x).env = s.env := rfl
@[simp] theorem setDev_hostq (s : State) (x : List DeviceRecord) : (s.setDev x).hostq = s.hostq := rfl
@[simp] theorem setDev_result (s : State) (x : List DeviceRecord) : (s.setDev x).result = s.result := rfl
@[simp] theorem setDev_bus (s : State) (x : List DeviceRecord) : (s.setDev x).bus = s.bus := rfl
@[simp] theorem setDev_pins (s : State) (x : List DeviceRecord) : (s.setDev x).pins = s.pins := rfl
@[simp] theorem setDev_out (s : State) (x : List DeviceRecord) : (s.setDev x).out = s.out := rfl

@[simp] theorem setRstN_par (s : State) (x : Bool) : (s.setRstN x).par = s.par := rfl
@[simp] theorem setRstN_rxRec (s : State) (x : Bool) : (s.setRstN x).rxRec = s.rxRec := rfl
@[simp] theorem setRstN_txRec (s : State) (x : Bool) : (s.setRstN x).txRec = s.txRec := rfl
@[simp] theorem setRstN_mainCtl (s : State) (x : Bool) : (s.setRstN x).mainCtl = s.mainCtl := rfl
@[simp] theorem setRstN_irqCtl (s : State) (x : Bool) : (s.setRstN x).irqCtl = s.irqCtl := rfl
@[simp] theorem setRstN_rxEvent (s : State) (x : Bool) : (s.setRstN x).rxEvent = s.rxEvent := rfl
@[simp] theorem setRstN_txEvent (s : State) (x : Bool) : (s.setRstN x).txEvent = s.txEvent := rfl
@[simp] theorem setRstN_irqMask (s : State) (x : Bool) : (s.setRstN x).irqMask = s.irqMask := rfl
@[simp] theorem setRstN_irqActive (s : State) (x : Bool) : (s.setRstN x).irqActive = s.irqActive := rfl
@[simp] theorem setRstN_drv (s : State) (x : Bool) : (s.setRstN x).drv = s.drv := rfl
@[simp] theorem setRstN_cfg (s : State) (x : Bool) : (s.setRstN x).cfg = s.cfg := rfl
@[simp] theorem setRstN_txSeq (s : State) (x : Bool) : (s.setRstN x).txSeq = s.txSeq := rfl
@[simp] theorem setRstN_localSeq (s : State) (x : Bool) : (s.setRstN x).localSeq = s.localSeq := rfl
@[simp] theorem setRstN_dev (s : State) (x : Bool) : (s.setRstN x).dev = s.dev := rfl
@[simp] theorem setRstN_rstN (s : State) (x : Bool) : (s.setRstN x).rstN = x := rfl
@[simp] theorem setRstN_dec (s : State) (x : Bool) : (s.setRstN x).dec = s.dec := rfl
@[simp] theorem setRstN_env (s : State) (x : Bool) : (s.setRstN x).env = s.env := rfl
@[simp] theorem setRstN_hostq (s : State) (x : Bool) : (s.setRstN x).hostq = s.hostq := rfl
@[simp] theorem setRstN_result (s : State) (x : Bool) : (s.setRstN x).result = s.result := rfl
@[simp] theorem setRstN_bus (s : State) (x : Bool) : (s.setRstN x).bus = s.bus := rfl
@[simp] theorem setRstN_pins (s : State) (x : Bool) : (s.setRstN x).pins = s.pins := rfl
@[simp] theorem setRstN_out (s : State) (x : Bool) : (s.setRstN x).out = s.out := rfl

@[simp] theorem setDec_par (s : State) (x : DecCtx) : (s.setDec x).par = s.par := rfl
@[simp] theorem setDec_rxRec (s : State) (x : DecCtx) : (s.setDec x).rxRec = s.rxRec := rfl
@[simp] theorem setDec_txRec (s : State) (x : DecCtx) : (s.setDec x).txRec = s.txRec := rfl
@[simp] theorem setDec_mainCtl (s : State) (x : DecCtx) : (s.setDec x).mainCtl = s.mainCtl := rfl
@[simp] theorem setDec_irqCtl (s : State) (x : DecCtx) : (s.setDec x).irqCtl = s.irqCtl := rfl
@[simp] theorem setDec_rxEvent (s : State) (x : DecCtx) : (s.setDec x).rxEvent = s.rxEvent := rfl
@[simp] theorem setDec_txEvent (s : State) (x : DecCtx) : (s.setDec x).txEvent = s.txEvent := rfl
@[simp] theorem setDec_irqMask (s : State) (x : DecCtx) : (s.setDec x).irqMask = s.irqMask := rfl
@[simp] theorem setDec_irqActive (s : State) (x : DecCtx) : (s.setDec x).irqActive = s.irqActive := rfl
@[simp] theorem setDec_drv (s : State) (x : DecCtx) : (s.setDec x).drv = s.drv := rfl
@[simp] theorem setDec_cfg (s : State) (x : DecCtx) : (s.setDec x).cfg = s.cfg := rfl
@[simp] theorem setDec_txSeq (s : State) (x : DecCtx) : (s.setDec x).txSeq = s.txSeq := rfl
@[simp] theorem setDec_localSeq (s : State) (x : DecCtx) : (s.setDec x).localSeq = s.localSeq := rfl
@[simp] theorem setDec_dev (s : State) (x : DecCtx) : (s.setDec x).dev = s.dev := rfl
@[simp] theorem setDec_rstN (s : State) (x : DecCtx) : (s.setDec x).rstN = s.rstN := rfl
@[simp] theorem setDec_dec (s : State) (x : DecCtx) : (s.setDec x).dec = x := rfl
@[simp] theorem setDec_env (s : State) (x : DecCtx) : (s.setDec x).env = s.env := rfl
@[simp] theorem setDec_hostq (s : State) (x : DecCtx) : (s.setDec x).hostq = s.hostq := rfl
@[simp] theorem setDec_result (s : State) (x : DecCtx) : (s.setDec x).result = s.result := rfl
@[simp] theorem setDec_bus (s : State) (x : DecCtx) : (s.setDec x).bus = s.bus := rfl
@[simp] theorem setDec_pins (s : State) (x : DecCtx) : (s.setDec x).pins = s.pins := rfl
@[simp] theorem setDec_out (s : State) (x : DecCtx) : (s.setDec x).out = s.out := rfl

@[simp] theorem setEnv_par (s : State) (x : Env) : (s.setEnv x).par = s.par := rfl
@[simp] theorem setEnv_rxRec (s : State) (x : Env) : (s.setEnv x).rxRec = s.rxRec := rfl
@[simp] theorem setEnv_txRec (s : State) (x : Env) : (s.setEnv x).txRec = s.txRec := rfl
@[simp] theorem setEnv_mainCtl (s : State) (x : Env) : (s.setEnv x).mainCtl = s.mainCtl := rfl
@[simp] theorem setEnv_irqCtl (s : State) (x : Env) : (s.setEnv x).irqCtl = s.irqCtl := rfl
@[simp] theorem setEnv_rxEvent (s : State) (x : Env) : (s.setEnv x).rxEvent = s.rxEvent := rfl
@[simp] theorem setEnv_txEvent (s : State) (x : Env) : (s.setEnv x).txEvent = s.txEvent := rfl
@[simp] theorem setEnv_irqMask (s : State) (x : Env) : (s.setEnv x).irqMask = s.irqMask := rfl
@[simp] theorem setEnv_irqActive (s : State) (x : Env) : (s.setEnv x).irqActive = s.irqActive := rfl
@[simp] theorem setEnv_drv (s : State) (x : Env) : (s.setEnv x).drv = s.drv := rfl
@[simp] theorem setEnv_cfg (s : State) (x : Env) : (s.setEnv x).cfg = s.cfg := rfl
@[simp] theorem setEnv_txSeq (s : State) (x : Env) : (s.setEnv x).txSeq = s.txSeq := rfl
@[simp] theorem setEnv_localSeq (s : State) (x : Env) : (s.setEnv x).localSeq = s.localSeq := rfl
@[simp] theorem setEnv_dev (s : State) (x : Env) : (s.setEnv x).dev = s.dev := rfl
@[simp] theorem setEnv_rstN (s : State) (x : Env) : (s.setEnv x).rstN = s.rstN := rfl
@[simp] theorem setEnv_dec (s : State) (x : Env) : (s.setEnv x).dec = s.dec := rfl
@[simp] theorem setEnv_env (s : State) (x : Env) : (s.setEnv x).env = x := rfl
@[simp] theorem setEnv_hostq (s : State) (x : Env) : (s.setEnv x).hostq = s.hostq := rfl
@[simp] theorem setEnv_result (s : State) (x : Env) : (s.setEnv x).result = s.result := rfl
@[simp] theorem setEnv_bus (s : State) (x : Env) : (s.setEnv x).bus = s.bus := rfl
@[simp] theorem setEnv_pins (s : State) (x : Env) : (s.setEnv x).pins = s.pins := rfl
@[simp] theorem setEnv_out (s : State) (x : Env) : (s.setEnv x).out = s.out := rfl

@[simp] theorem setHostq_par (s : State) (x : List (List Byte)) : (s.setHostq x).par = s.par := rfl
@[simp] theorem setHostq_rxRec (s : State) (x : List (List Byte)) : (s.setHostq x).rxRec = s.rxRec := rfl
@[simp] theorem setHostq_txRec (s : State) (x : List (List Byte)) : (s.setHostq x).txRec = s.txRec := rfl
@[simp] theorem setHostq_mainCtl (s : State) (x : List (List Byte)) : (s.setHostq x).mainCtl = s.mainCtl := rfl
@[simp] theorem setHostq_irqCtl (s : State) (x : List (List Byte)) : (s.setHostq x).irqCtl = s.irqCtl := rfl
@[simp] theorem setHostq_rxEvent (s : State) (x : List (List Byte)) : (s.setHostq x).rxEvent = s.rxEvent := rfl
@[simp] theorem setHostq_txEvent (s : State) (x : List (List Byte)) : (s.setHostq x).txEvent = s.txEvent := rfl
@[simp] theorem setHostq_irqMask (s : State) (x : List (List Byte)) : (s.setHostq x).irqMask = s.irqMask := rfl
@[simp] theorem setHostq_irqActive (s : State) (x : List (List Byte)) : (s.setHostq x).irqActive = s.irqActive := rfl
@[simp] theorem setHostq_drv (s : State) (x : List (List Byte)) : (s.setHostq x).drv = s.drv := rfl
@[simp] theorem setHostq_cfg (s : State) (x : List (List Byte)) : (s.setHostq x).cfg = s.cfg := rfl
@[simp] theorem setHostq_txSeq (s : State) (x : List (List Byte)) : (s.setHostq x).txSeq = s.txSeq := rfl
@[simp] theorem setHostq_localSeq (s : State) (x : List (List Byte)) : (s.setHostq x).localSeq = s.localSeq := rfl
@[simp] theorem setHostq_dev (s : State) (x : List (List Byte)) : (s.setHostq x).dev = s.dev := rfl
@[simp] theorem setHostq_rstN (s : State) (x : List (List Byte)) : (s.setHostq x).rstN = s.rstN := rfl
@[simp] theorem setHostq_dec (s : State) (x : List (List Byte)) : (s.setHostq x).dec = s.dec := rfl
@[simp] theorem setHostq_env (s : State) (x : List (List Byte)) : (s.setHostq x).env = s.env := rfl
@[simp] theorem setHostq_hostq (s : State) (x : List (List Byte)) : (s.setHostq x).hostq = x := rfl
@[simp] theorem setHostq_result (s : State) (x : List (List Byte)) : (s.setHostq x).result = s.result := rfl
@[simp] theorem setHostq_bus (s : State) (x : List (List Byte)) : (s.setHostq x).bus = s.bus := rfl
@[simp] theorem setHostq_pins (s : State) (x : List (List Byte)) : (s.setHostq x).pins = s.pins := rfl
@[simp] theorem setHostq_out (s : State) (x : List (List Byte)) : (s.setHostq x).out = s.out := rfl

@[simp] theorem setResult_par (s : State) (x : OpResult) : (s.setResult x).par = s.par := rfl
@[simp] theorem setResult_rxRec (s : State) (x : OpResult) : (s.setResult x).rxRec = s.rxRec := rfl
@[simp] theorem setResult_txRec (s : State) (x : OpResult) : (s.setResult x).txRec = s.txRec := rfl
@[simp] theorem setResult_mainCtl (s : State) (x : OpResult) : (s.setResult x).mainCtl = s.mainCtl := rfl
@[simp] theorem setResult_irqCtl (s : State) (x : OpResult) : (s.setResult x).irqCtl = s.irqCtl := rfl
@[simp] theorem setResult_rxEvent (s : State) (x : OpResult) : (s.setResult x).rxEvent = s.rxEvent := rfl
@[simp] theorem setResult_txEvent (s : State) (x : OpResult) : (s.setResult x).txEvent = s.txEvent := rfl
@[simp] theorem setResult_irqMask (s : State) (x : OpResult) : (s.setResult x).irqMask = s.irqMask := rfl
@[simp] theorem setResult_irqActive (s : State) (x : OpResult) : (s.setResult x).irqActive = s.irqActive := rfl
@[simp] theorem setResult_drv (s : State) (x : OpResult) : (s.setResult x).drv = s.drv := rfl
@[simp] theorem setResult_cfg (s : State) (x : OpResult) : (s.setResult x).cfg = s.cfg := rfl
@[simp] theorem setResult_txSeq (s : State) (x : OpResult) : (s.setResult x).txSeq = s.txSeq := rfl
@[simp] theorem setResult_localSeq (s : State) (x : OpResult) : (s.setResult x).localSeq = s.localSeq := rfl
@[simp] theorem setResult_dev (s : State) (x : OpResult) : (s.setResult x).dev = s.dev := rfl
@[simp] theorem setResult_rstN (s : State) (x : OpResult) : (s.setResult x).rstN = s.rstN := rfl
@[simp] theorem setResult_dec (s : State) (x : OpResult) : (s.setResult x).dec = s.dec := rfl
@[simp] theorem setResult_env (s : State) (x : OpResult) : (s.setResult x).env = s.env := rfl
@[simp] theorem setResult_hostq (s : State) (x : OpResult) : (s.setResult x).hostq = s.hostq := rfl
@[simp] theorem setResult_result (s : State) (x : OpResult) : (s.setResult x).result = x := rfl
@[simp] theorem setResult_bus (s : State) (x : OpResult) : (s.setResult x).bus = s.bus := rfl
@[simp] theorem setResult_pins (s : State) (x : OpResult) : (s.setResult x).pins = s.pins := rfl
@[simp] theorem setResult_out (s : State) (x : OpResult) : (s.setResult x).out = s.out := rfl

@[simp] theorem pushBus_par (s : State) (x : BusEvent) : (s.pushBus x).par = s.par := rfl
@[simp] theorem pushBus_rxRec (s : State) (x : BusEvent) : (s.pushBus x).rxRec = s.rxRec := rfl
@[simp] theorem pushBus_txRec (s : State) (x : BusEvent) : (s.pushBus x).txRec = s.txRec := rfl
@[simp] theorem pushBus_mainCtl (s : State) (x : BusEvent) : (s.pushBus x).mainCtl = s.mainCtl := rfl
@[simp] theorem pushBus_irqCtl (s : State) (x : BusEvent) : (s.pushBus x).irqCtl = s.irqCtl := rfl
@[simp] theorem pushBus_rxEvent (s : State) (x : BusEvent) : (s.pushBus x).rxEvent = s.rxEvent := rfl
@[simp] theorem pushBus_txEvent (s : State) (x : BusEvent) : (s.pushBus x).txEvent = s.txEvent := rfl
@[simp] theorem pushBus_irqMask (s : State) (x : BusEvent) : (s.pushBus x).irqMask = s.irqMask := rfl
@[simp] theorem pushBus_irqActive (s : State) (x : BusEvent) : (s.pushBus x).irqActive = s.irqActive := rfl
@[simp] theorem pushBus_drv (s : State) (x : BusEvent) : (s.pushBus x).drv = s.drv := rfl
@[simp] theorem pushBus_cfg (s : State) (x : BusEvent) : (s.pushBus x).cfg = s.cfg := rfl
@[simp] theorem pushBus_txSeq (s : State) (x : BusEvent) : (s.pushBus x).txSeq = s.txSeq := rfl
@[simp] theorem pushBus_localSeq (s : State) (x : BusEvent) : (s.pushBus x).localSeq = s.localSeq := rfl
@[simp] theorem pushBus_dev (s : State) (x : BusEvent) : (s.pushBus x).dev = s.dev := rfl
@[simp] theorem pushBus_rstN (s : State) (x : BusEvent) : (s.pushBus x).rstN = s.rstN := rfl
@[simp] theorem pushBus_dec (s : State) (x : BusEvent) : (s.pushBus x).dec = s.dec := rfl
@[simp] theorem pushBus_env (s : State) (x : BusEvent) : (s.pushBus x).env = s.env := rfl
@[simp] theorem pushBus_hostq (s : State) (x : BusEvent) : (s.pushBus x).hostq = s.hostq := rfl
@[simp] theorem pushBus_result (s : State) (x : BusEvent) : (s.pushBus x).result = s.result := rfl
@[simp] theorem pushBus_bus (s : State) (x : BusEvent) : (s.pushBus x).bus = s.bus ++ [x] := rfl
@[simp] theorem pushBus_pins (s : State) (x : BusEvent) : (s.pushBus x).pins = s.pins := rfl
@[simp] theorem pushBus_out (s : State) (x : BusEvent) : (s.pushBus x).out = s.out := rfl

@[simp] theorem pushPin_par (s : State) (x : PinEvent) : (s.pushPin x).par = s.par := rfl
@[simp] theorem pushPin_rxRec (s : State) (x : PinEvent) : (s.pushPin x).rxRec = s.rxRec := rfl
@[simp] theorem pushPin_txRec (s : State) (x : PinEvent) : (s.pushPin x).txRec = s.txRec := rfl
@[simp] theorem pushPin_mainCtl (s : State) (x : PinEvent) : (s.pushPin x).mainCtl = s.mainCtl := rfl
@[simp] theorem pushPin_irqCtl (s : State) (x : PinEvent) : (s.pushPin x).irqCtl = s.irqCtl := rfl
@[simp] theorem pushPin_rxEvent (s : State) (x : PinEvent) : (s.pushPin x).rxEvent = s.rxEvent := rfl
@[simp] theorem pushPin_txEvent (s : State) (x : PinEvent) : (s.pushPin x).txEvent = s.txEvent := rfl
@[simp] theorem pushPin_irqMask (s : State) (x : PinEvent) : (s.pushPin x).irqMask = s.irqMask := rfl
@[simp] theorem pushPin_irqActive (s : State) (x : PinEvent) : (s.pushPin x).irqActive = s.irqActive := rfl
@[simp] theorem pushPin_drv (s : State) (x : PinEvent) : (s.pushPin x).drv = s.drv := rfl
@[simp] theorem pushPin_cfg (s : State) (x : PinEvent) : (s.pushPin x).cfg = s.cfg := rfl
@[simp] theorem pushPin_txSeq (s : State) (x : PinEvent) : (s.pushPin x).txSeq = s.txSeq := rfl
@[simp] theorem pushPin_localSeq (s : State) (x : PinEvent) : (s.pushPin x).localSeq = s.localSeq := rfl
@[simp] theorem pushPin_dev (s : State) (x : PinEvent) : (s.pushPin x).dev = s.dev := rfl
@[simp] theorem pushPin_rstN (s : State) (x : PinEvent) : (s.pushPin x).rstN = s.rstN := rfl
@[simp] theorem pushPin_dec (s : State) (x : PinEvent) : (s.pushPin x).dec = s.dec := rfl
@[simp] theorem pushPin_env (s : State) (x : PinEvent) : (s.pushPin x).env = s.env := rfl
@[simp] theorem pushPin_hostq (s : State) (x : PinEvent) : (s.pushPin x).hostq = s.hostq := rfl
@[simp] theorem pushPin_result (s : State) (x : PinEvent) : (s.pushPin x).result = s.result := rfl
@[simp] theorem pushPin_bus (s : State) (x : PinEvent) : (s.pushPin x).bus = s.bus := rfl
@[simp] theorem pushPin_pins (s : State) (x : PinEvent) : (s.pushPin x).pins = s.pins ++ [x] := rfl
@[simp] theorem pushPin_out (s : State) (x : PinEvent) : (s.pushPin x).out = s.out := rfl

@[simp] theorem emit_par (s : State) (x : OutEvent) : (s.emit x).par = s.par := rfl
@[simp] theorem emit_rxRec (s : State) (x : OutEvent) : (s.emit x).rxRec = s.rxRec := rfl
@[simp] theorem emit_txRec (s : State) (x : OutEvent) : (s.emit x).txRec = s.txRec := rfl
@[simp] theorem emit_mainCtl (s : State) (x : OutEvent) : (s.emit x).mainCtl = s.mainCtl := rfl
@[simp] theorem emit_irqCtl (s : State) (x : OutEvent) : (s.emit x).irqCtl = s.irqCtl := rfl
@[simp] theorem emit_rxEvent (s : State) (x : OutEvent) : (s.emit x).rxEvent = s.rxEvent := rfl
@[simp] theorem emit_txEvent (s : State) (x : OutEvent) : (s.emit x).txEvent = s.txEvent := rfl
@[simp] theorem emit_irqMask (s : State) (x : OutEvent) : (s.emit x).irqMask = s.irqMask := rfl
@[simp] theorem emit_irqActive (s : State) (x : OutEvent) : (s.emit x).irqActive = s.irqActive := rfl
@[simp] theorem emit_drv (s : State) (x : OutEvent) : (s.emit x).drv = s.drv := rfl
@[simp] theorem emit_cfg (s : State) (x : OutEvent) : (s.emit x).cfg = s.cfg := rfl
@[simp] theorem emit_txSeq (s : State) (x : OutEvent) : (s.emit x).txSeq = s.txSeq := rfl
@[simp] theorem emit_localSeq (s : State) (x : OutEvent) : (s.emit x).localSeq = s.localSeq := rfl
@[simp] theorem emit_dev (s : State) (x : OutEvent) : (s.emit x).dev = s.dev := rfl
@[simp] theorem emit_rstN (s : State) (x : OutEvent) : (s.emit x).rstN = s.rstN := rfl
@[simp] theorem emit_dec (s : State) (x : OutEvent) : (s.emit x).dec = s.dec := rfl
@[simp] theorem emit_env (s : State) (x : OutEvent) : (s.emit x).env = s.env := rfl
@[simp] theorem emit_hostq (s : State) (x : OutEvent) : (s.emit x).hostq = s.hostq := rfl
@[simp] theorem emit_result (s : State) (x : OutEvent) : (s.emit x).result = s.result := rfl
@[simp] theorem emit_bus (s : State) (x : OutEvent) : (s.emit x).bus = s.bus := rfl
@[simp] theorem emit_pins (s : State) (x : OutEvent) : (s.emit x).pins = s.pins := rfl
@[simp] theorem emit_out (s : State) (x : OutEvent) : (s.emit x).out = s.out ++ [x] := rfl

end Sys2Proof.Machine.State
end

