-- ==== Sys2Proof/Laws/Ops.lean ====
section
/-! SUPPORT. Laws/Ops.lean: one lemma per shared operation that says once everything it can do, and the rules for reasoning
about sequences of operations: `Triple` (what an operation started in a state with `P` ends in) and `Stays` (a property it
keeps unless the bus sticks). -/

namespace Sys2Proof.Machine

/-! ## Sequencing -/

theorem op_bind {α β : Type} (x : Op α) (k : α → Op β) (s : State) :
    (x >>= k) s = (match x s with | .ok a t => k a t | .error e t => .error e t) := by
  cases h : x s <;> simp [bind, EStateM.bind, h]

@[simp] theorem op_pure {α : Type} (a : α) (s : State) : (pure a : Op α) s = .ok a s := rfl
@[simp] theorem op_view {α : Type} (f : State → α) (s : State) : Op.view f s = .ok (f s) s := rfl
@[simp] theorem op_update (f : State → State) (s : State) : Op.update f s = .ok () (f s) := rfl
@[simp] theorem op_raise {α : Type} (c : Code) (s : State) : (Op.raise c : Op α) s = .error (.code c) s := rfl
@[simp] theorem op_require (b : Bool) (c : Code) (s : State) :
    Op.require b c s = if b then .ok () s else .error (.code c) s := rfl

/-- A first operation that ends well hands its value and state to the rest. -/
theorem op_bind_ok {α β : Type} {x : Op α} {k : α → Op β} {s t : State} {a : α} (h : x s = .ok a t) :
    (x >>= k) s = k a t := by rw [op_bind, h]

/-- A first operation that ends early ends the sequence. -/
theorem op_bind_error {α β : Type} {x : Op α} {k : α → Op β} {s t : State} {e : Raise} (h : x s = .error e t) :
    (x >>= k) s = .error e t := by rw [op_bind, h]

/-- What an operation started in a state with `P` ends in: `Q` when it ends well, `E` when it ends early. -/
def Triple {α : Type} (P : State → Prop) (x : Op α) (Q : α → State → Prop) (E : Raise → State → Prop) : Prop :=
  ∀ s, P s → match x s with | .ok a t => Q a t | .error e t => E e t

theorem Triple.bind {α β : Type} {P : State → Prop} {x : Op α} {k : α → Op β} {Q : α → State → Prop}
    {R : β → State → Prop} {E : Raise → State → Prop} (hx : Triple P x Q E) (hk : ∀ a, Triple (Q a) (k a) R E) :
    Triple P (x >>= k) R E := by
  intro s hs
  have h := hx s hs
  rw [op_bind]
  cases hxs : x s with
  | ok a t => rw [hxs] at h; exact hk a t h
  | error e t => rw [hxs] at h; exact h

/-- A property an operation keeps, whether it ends well or with a code. -/
def Stays {α : Type} (P : State → Prop) (x : Op α) : Prop :=
  Triple P x (fun _ => P) (fun e t => ∀ c, e = .code c → P t)

theorem Stays.bind {α β : Type} {P : State → Prop} {x : Op α} {k : α → Op β} (hx : Stays P x)
    (hk : ∀ a, Stays P (k a)) : Stays P (x >>= k) := Triple.bind hx hk

theorem Stays.pure {α : Type} {P : State → Prop} (a : α) : Stays P (pure a : Op α) := fun _ h => h
theorem Stays.view {α : Type} {P : State → Prop} (f : State → α) : Stays P (Op.view f) := fun _ h => h
theorem Stays.raise {α : Type} {P : State → Prop} (c : Code) : Stays P (Op.raise c : Op α) := fun _ h _ _ => h
theorem Stays.update {P : State → Prop} {f : State → State} (h : ∀ s, P s → P (f s)) : Stays P (Op.update f) :=
  fun s hs => h s hs

theorem Stays.require {P : State → Prop} (b : Bool) (c : Code) : Stays P (Op.require b c) := by
  intro s hs
  cases b
  · exact fun _ _ => hs
  · exact hs

theorem Stays.ite {α : Type} {P : State → Prop} (b : Prop) [Decidable b] {x y : Op α} (hx : Stays P x)
    (hy : Stays P y) : Stays P (if b then x else y) := by split <;> assumption

theorem Stays.attempt {P : State → Prop} {x : Op Unit} (hx : Stays P x) : Stays P (Op.attempt x) := by
  intro s hs
  have h := hx s hs
  unfold Op.attempt
  cases hxs : x s with
  | ok a t => rw [hxs] at h; exact h
  | error e t =>
    rw [hxs] at h
    cases e with
    | code c => exact h c rfl
    | fault f => intro c hc; cases hc

/-! ## Transactions -/

/-- A read transaction that completes, completes so. -/
theorem busRead_ok {c : Ctx} {l : Loc} {s t : State} {v : Byte} (h : busRead c l s = .ok v t) :
    l.inRange = true ∧ s.env.stuckAfter ≠ some 0 ∧ v = (s.env.read s.par.reg l).1 ∧ t = s.afterBusRead c l := by
  unfold busRead at h
  split at h
  · cases h
  · split at h
    · cases h
    · next hr hs => cases h; exact ⟨by simpa using hr, hs, rfl, rfl⟩

/-- A write transaction that completes, completes so. -/
theorem busWrite_ok {c : Ctx} {l : Loc} {v : Byte} {s t : State} {u : Unit} (h : busWrite c l v s = .ok u t) :
    l.inRange = true ∧ s.env.stuckAfter ≠ some 0 ∧ t = s.afterBusWrite c l v := by
  unfold busWrite at h
  split at h
  · cases h
  · split at h
    · cases h
    · next hr hs => cases h; exact ⟨by simpa using hr, hs, rfl⟩

theorem busRead_run {c : Ctx} {l : Loc} {s : State} (hl : l.inRange = true) (hs : s.env.stuckAfter = none) :
    busRead c l s = .ok (s.env.read s.par.reg l).1 (s.afterBusRead c l) := by simp [busRead, hl, hs]

theorem busWrite_run {c : Ctx} {l : Loc} {v : Byte} {s : State} (hl : l.inRange = true)
    (hs : s.env.stuckAfter = none) : busWrite c l v s = .ok () (s.afterBusWrite c l v) := by simp [busWrite, hl, hs]

/-- A read transaction keeps what both its side effects and a refusal keep. -/
theorem Stays.busRead {P : State → Prop} (c : Ctx) (l : Loc)
    (h : ∀ s, P s → P (s.afterBusRead c l)) : Stays P (busRead c l) := by
  intro s hs
  unfold Machine.busRead
  split
  · next e => split at e <;> first | (cases e) | (split at e <;> cases e; exact h s hs)
  · next e => split at e <;> first | (cases e; exact fun _ _ => hs) | (split at e <;> cases e; exact fun _ _ => hs)

/-- A write transaction keeps what both its side effects and a refusal keep. -/
theorem Stays.busWrite {P : State → Prop} (c : Ctx) (l : Loc) (v : Byte)
    (h : ∀ s, P s → P (s.afterBusWrite c l v)) : Stays P (busWrite c l v) := by
  intro s hs
  unfold Machine.busWrite
  split
  · next e => split at e <;> first | (cases e) | (split at e <;> cases e; exact h s hs)
  · next e => split at e <;> first | (cases e; exact fun _ _ => hs) | (split at e <;> cases e; exact fun _ _ => hs)

/-! ## What a transaction leaves -/

section Transactions
variable (s : State) (c : Ctx) (l : Loc) (v : Byte)

@[simp] theorem afterBusRead_par : (s.afterBusRead c l).par = s.par := rfl
@[simp] theorem afterBusRead_rxRec : (s.afterBusRead c l).rxRec = s.rxRec := rfl
@[simp] theorem afterBusRead_txRec : (s.afterBusRead c l).txRec = s.txRec := rfl
@[simp] theorem afterBusRead_mainCtl : (s.afterBusRead c l).mainCtl = s.mainCtl := rfl
@[simp] theorem afterBusRead_irqCtl : (s.afterBusRead c l).irqCtl = s.irqCtl := rfl
@[simp] theorem afterBusRead_rxEvent : (s.afterBusRead c l).rxEvent = s.rxEvent := rfl
@[simp] theorem afterBusRead_txEvent : (s.afterBusRead c l).txEvent = s.txEvent := rfl
@[simp] theorem afterBusRead_drv : (s.afterBusRead c l).drv = s.drv := rfl
@[simp] theorem afterBusRead_cfg : (s.afterBusRead c l).cfg = s.cfg := rfl
@[simp] theorem afterBusRead_txSeq : (s.afterBusRead c l).txSeq = s.txSeq := rfl
@[simp] theorem afterBusRead_localSeq : (s.afterBusRead c l).localSeq = s.localSeq := rfl
@[simp] theorem afterBusRead_dev : (s.afterBusRead c l).dev = s.dev := rfl
@[simp] theorem afterBusRead_dec : (s.afterBusRead c l).dec = s.dec := rfl
@[simp] theorem afterBusWrite_par : (s.afterBusWrite c l v).par = s.par := rfl
@[simp] theorem afterBusWrite_rxRec : (s.afterBusWrite c l v).rxRec = s.rxRec := rfl
@[simp] theorem afterBusWrite_txRec : (s.afterBusWrite c l v).txRec = s.txRec := rfl
@[simp] theorem afterBusWrite_mainCtl : (s.afterBusWrite c l v).mainCtl = s.mainCtl := rfl
@[simp] theorem afterBusWrite_irqCtl : (s.afterBusWrite c l v).irqCtl = s.irqCtl := rfl
@[simp] theorem afterBusWrite_rxEvent : (s.afterBusWrite c l v).rxEvent = s.rxEvent := rfl
@[simp] theorem afterBusWrite_txEvent : (s.afterBusWrite c l v).txEvent = s.txEvent := rfl
@[simp] theorem afterBusWrite_drv : (s.afterBusWrite c l v).drv = s.drv := rfl
@[simp] theorem afterBusWrite_cfg : (s.afterBusWrite c l v).cfg = s.cfg := rfl
@[simp] theorem afterBusWrite_txSeq : (s.afterBusWrite c l v).txSeq = s.txSeq := rfl
@[simp] theorem afterBusWrite_localSeq : (s.afterBusWrite c l v).localSeq = s.localSeq := rfl
@[simp] theorem afterBusWrite_dev : (s.afterBusWrite c l v).dev = s.dev := rfl
@[simp] theorem afterBusWrite_dec : (s.afterBusWrite c l v).dec = s.dec := rfl

@[simp] theorem afterBusRead_env : (s.afterBusRead c l).env = (s.env.read s.par.reg l).2.tickBus := rfl
@[simp] theorem afterBusWrite_env : (s.afterBusWrite c l v).env = (s.env.write s.par.reg l v).tickBus := rfl

@[simp] theorem afterBusRead_agenda : (s.afterBusRead c l).env.agenda = s.env.agenda := by
  rw [afterBusRead_env, Env.read_frame]; rfl

@[simp] theorem afterBusWrite_agenda : (s.afterBusWrite c l v).env.agenda = s.env.agenda := by
  rw [afterBusWrite_env]; unfold Env.tickBus; rw [Env.write_frame s.par.reg s.env l v]

@[simp] theorem afterBusRead_runMoves : (s.afterBusRead c l).env.runMoves = s.env.runMoves := by
  rw [afterBusRead_env, Env.read_frame]; rfl

@[simp] theorem afterBusWrite_runMoves : (s.afterBusWrite c l v).env.runMoves = s.env.runMoves := by
  rw [afterBusWrite_env]; unfold Env.tickBus; rw [Env.write_frame s.par.reg s.env l v]

@[simp] theorem afterBusRead_stuckAfter :
    (s.afterBusRead c l).env.stuckAfter = s.env.stuckAfter.map (· - 1) := by
  rw [afterBusRead_env, Env.read_frame]; rfl

@[simp] theorem afterBusWrite_stuckAfter :
    (s.afterBusWrite c l v).env.stuckAfter = s.env.stuckAfter.map (· - 1) := by
  rw [afterBusWrite_env]; unfold Env.tickBus; rw [Env.write_frame s.par.reg s.env l v]

/-- A read never raises the line. -/
theorem afterBusRead_irqLine (h : s.env.irqLine = false) : (s.afterBusRead c l).env.irqLine = false := by
  rw [afterBusRead_env]
  unfold Env.tickBus Env.read Env.afterRead
  split
  · rfl
  · show (s.env.answer s.par.reg l).2.irqLine = false
    unfold Env.answer
    split
    · exact h
    · split
      · exact h
      · split <;> exact h

/-- A read leaves pending causes that there are not. -/
theorem afterBusRead_pending (h : s.env.pending = 0) : (s.afterBusRead c l).env.pending = 0 := by
  rw [afterBusRead_env]
  unfold Env.tickBus Env.read Env.afterRead
  split
  · rfl
  · show (s.env.answer s.par.reg l).2.pending = 0
    unfold Env.answer
    split
    · exact h
    · split
      · exact h
      · split <;> exact h

/-- With no cause pending a write never raises the line. -/
theorem afterBusWrite_line_low (hp : s.env.pending = 0) (hl : s.env.irqLine = false) :
    (s.afterBusWrite c l v).env.pending = 0 ∧ (s.afterBusWrite c l v).env.irqLine = false :=
  Env.write_line_low s.par.reg s.env l v hp hl

end Transactions

/-! ## The interrupt run -/

/-- `t` is `s` but for what the interrupt context and the environment may write (20 R59, 60 R205). -/
def IrqFrame (s t : State) : Prop :=
  t = { s with rxRec := t.rxRec, txRec := t.txRec, rxEvent := t.rxEvent, txEvent := t.txEvent, env := t.env, bus := t.bus }

theorem IrqFrame.refl (s : State) : IrqFrame s s := rfl

theorem IrqFrame.trans {s t u : State} (h : IrqFrame s t) (k : IrqFrame t u) : IrqFrame s u := by
  unfold IrqFrame at *
  rw [k, h]

/-- `t` is `s` but for what the environment may write. -/
def EnvFrame (s t : State) : Prop := t = { s with env := t.env }

theorem EnvFrame.refl (s : State) : EnvFrame s s := rfl

theorem EnvFrame.trans {s t u : State} (h : EnvFrame s t) (k : EnvFrame t u) : EnvFrame s u := by
  unfold EnvFrame at *
  rw [k, h]

theorem EnvFrame.irq {s t : State} (h : EnvFrame s t) : IrqFrame s t := by
  unfold EnvFrame at h
  unfold IrqFrame
  rw [h]

/-- `t` is `s` but for what a step of the interrupt context may write, the control state included. -/
def RunFrame (s t : State) : Prop := ∃ c, IrqFrame (s.setIrqCtl c) t

theorem RunFrame.trans {s t u : State} (h : RunFrame s t) (k : RunFrame t u) : RunFrame s u := by
  obtain ⟨c, h⟩ := h
  obtain ⟨d, k⟩ := k
  refine ⟨d, ?_⟩
  unfold IrqFrame State.setIrqCtl at *
  rw [k, h]

theorem foldl_envMove_frame (ms : List EnvMove) (s : State) : EnvFrame s (ms.foldl State.envMove s) := by
  induction ms generalizing s with
  | nil => exact EnvFrame.refl s
  | cons m ms ih => exact EnvFrame.trans (t := s.envMove m) rfl (ih _)

/-- What a step of the interrupt context that starts from `s` leaves differs from `s` only in what the context may write. -/
theorem irqElem_stays {α : Type} {s0 : State} {x : Op α} (hx : Stays (RunFrame s0) x) :
    Stays (RunFrame s0) (irqElem x) := by
  unfold irqElem
  refine Stays.bind ?_ fun _ => Stays.bind (Stays.update fun s h => ?_) fun _ => hx
  · intro s hs
    unfold runBoundary
    cases s.env.runMoves with
    | nil => exact hs
    | cons ms rest =>
      exact hs.trans ⟨s.irqCtl, (EnvFrame.trans (t := s.setEnv { s.env with runMoves := rest }) rfl
        (foldl_envMove_frame ms _)).irq⟩
  · exact h.trans ⟨s.irqCtl.tick, rfl⟩

theorem irqRead_stays {s0 : State} (l : Loc) : Stays (RunFrame s0) (irqRead l) :=
  irqElem_stays (Stays.busRead _ _ fun s h => h.trans ⟨s.irqCtl, rfl⟩)

theorem irqWrite_stays {s0 : State} (l : Loc) (v : Byte) : Stays (RunFrame s0) (irqWrite l v) :=
  irqElem_stays (Stays.busWrite _ _ _ fun s h => h.trans ⟨s.irqCtl, rfl⟩)

theorem irqUpdate_stays {s0 : State} {f : State → State} (hf : ∀ s, IrqFrame s (f s)) :
    Stays (RunFrame s0) (irqElem (Op.update f)) :=
  irqElem_stays (Stays.update fun s h => h.trans ⟨s.irqCtl, hf s⟩)

theorem readFifo_stays {s0 : State} (b : Loc) (off n : Nat) : Stays (RunFrame s0) (readFifo b off n) := by
  induction n generalizing off with
  | zero => exact Stays.pure _
  | succ n ih => exact Stays.bind (irqRead_stays _) fun _ => Stays.bind (ih _) fun _ => Stays.pure _

theorem opRxpath_stays {s0 : State} : Stays (RunFrame s0) opRxpath := by
  refine Stays.bind (Stays.view _) fun p => Stays.bind (irqWrite_stays _ _) fun _ =>
    Stays.bind (irqRead_stays _) fun L => Stays.bind (irqRead_stays _) fun lo =>
    Stays.bind (irqRead_stays _) fun hi => ?_
  split
  · exact irqWrite_stays _ _
  · exact Stays.bind (irqRead_stays _) fun _ => Stays.bind (irqRead_stays _) fun _ =>
      Stays.bind (irqRead_stays _) fun _ => Stays.bind (readFifo_stays _ _ _) fun _ =>
      Stays.bind (readFifo_stays _ _ _) fun _ => Stays.bind (readFifo_stays _ _ _) fun _ =>
      Stays.bind (irqRead_stays _) fun _ => Stays.bind (irqRead_stays _) fun _ =>
      Stays.bind (irqUpdate_stays fun _ => rfl) fun _ => Stays.bind (irqWrite_stays _ _) fun _ =>
      irqUpdate_stays fun _ => rfl

theorem opTxpath_stays {s0 : State} : Stays (RunFrame s0) opTxpath :=
  Stays.bind (Stays.view _) fun _ => Stays.bind (irqRead_stays _) fun _ =>
    Stays.bind (irqUpdate_stays fun _ => rfl) fun _ => irqUpdate_stays fun _ => rfl

theorem opIrq_stays {s0 : State} : Stays (RunFrame s0) opIrq :=
  Stays.bind (Stays.view _) fun _ => Stays.bind (irqRead_stays _) fun _ =>
    Stays.bind (Stays.ite _ opRxpath_stays (Stays.pure _)) fun _ => Stays.ite _ opTxpath_stays (Stays.pure _)

theorem entryCond_iff (s : State) :
    entryCond s = true ↔ s.env.irqLine = true ∧ s.irqMask = false ∧ s.irqActive = false ∧ s.irqCtl = .idle := by
  simp [entryCond, and_assoc]

/-- A run that starts under the entry condition leaves everything but the records, the counters, the trace and the
environment as it was, and never ends with a code. -/
theorem irqRun_frame {s : State} (h : entryCond s = true) :
    match irqRun s with
    | .ok _ t => IrqFrame s t
    | .error e _ => ∃ f, e = .fault f := by
  obtain ⟨-, -, ha, hc⟩ := (entryCond_iff s).1 h
  have hs := opIrq_stays (s0 := enterIrq s) (enterIrq s) ⟨.running .irq 0, rfl⟩
  have key : ∀ t, RunFrame (enterIrq s) t → IrqFrame s (returnIrq t) := by
    rintro t ⟨c, ht⟩
    unfold IrqFrame at *
    unfold returnIrq enterIrq State.setIrqCtl State.setIrqActive at *
    rw [ht]
    obtain ⟨⟩ := s
    subst ha hc
    rfl
  unfold irqRun
  cases hx : opIrq (enterIrq s) with
  | ok a t => rw [hx] at hs; exact key t hs
  | error e t =>
    rw [hx] at hs
    cases e with
    | code c => exact key t (hs c rfl)
    | fault f => exact ⟨f, rfl⟩

/-! ## The boundary between two steps of the main context -/

/-- A boundary leaves everything but the records, the counters, the trace and the environment as it was; it ends early only
stuck. -/
theorem drain_frame (as : List Act) (s : State) :
    match drain as s with
    | .ok _ t => IrqFrame s t
    | .error e _ => ∃ f, e = .fault f := by
  have run : ∀ s, entryCond s = true → ∀ t u, irqRun s = .ok u t → IrqFrame s t := by
    intro s h t u ht
    have := irqRun_frame h
    rw [ht] at this; exact this
  induction as generalizing s with
  | nil =>
    unfold drain
    by_cases hc : entryCond s = true
    · rw [if_pos hc]
      by_cases hp : Config.freePreempt s.env.draws = true
      · rw [if_pos hp]
        have hc' : entryCond ((s.setAgenda []).bumpDraws) = true := hc
        have := irqRun_frame hc'
        cases hx : irqRun ((s.setAgenda []).bumpDraws) with
        | ok a t =>
          rw [hx] at this
          exact IrqFrame.trans (t := (s.setAgenda []).bumpDraws) rfl this
        | error e t => rw [hx] at this; exact this
      · rw [if_neg hp]; exact rfl
    · rw [if_neg hc]; exact rfl
  | cons a as ih =>
    cases a with
    | env m =>
      have := ih (s.envMove m)
      unfold drain
      cases hx : drain as (s.envMove m) with
      | ok a t => rw [hx] at this; exact IrqFrame.trans (t := s.envMove m) rfl this
      | error e t => rw [hx] at this; exact this
    | proceed => exact rfl
    | startIrq =>
      unfold drain
      by_cases hc : entryCond s = true
      · rw [if_pos hc]
        cases hx : irqRun s with
        | ok a t =>
          have h1 := run s hc t a hx
          have := ih t
          cases hy : drain as t with
          | ok b u => simp only [hy]; rw [hy] at this; exact h1.trans this
          | error e u => simp only [hy]; rw [hy] at this; exact this
        | error e t =>
          have := irqRun_frame hc
          rw [hx] at this
          exact this
      · rw [if_neg hc]; exact ih s

/-- A boundary under the mask lets only the environment move. -/
theorem drain_masked (as : List Act) (s : State) (h : s.irqMask = true) :
    ∃ t, drain as s = .ok () t ∧ EnvFrame s t := by
  have hc : ∀ s : State, s.irqMask = true → entryCond s = false := by intro s h; simp [entryCond, h]
  induction as generalizing s with
  | nil => exact ⟨s.setAgenda [], by simp [drain, hc s h], rfl⟩
  | cons a as ih =>
    cases a with
    | env m =>
      obtain ⟨t, ht, hf⟩ := ih (s.envMove m) h
      exact ⟨t, ht, EnvFrame.trans (t := s.envMove m) rfl hf⟩
    | proceed => exact ⟨s.setAgenda as, rfl, rfl⟩
    | startIrq =>
      obtain ⟨t, ht, hf⟩ := ih s h
      exact ⟨t, by simp [drain, hc s h, ht], hf⟩

/-- A property that depends on nothing an interrupt run or the environment writes is kept by an elementary step of the main
context if the step itself keeps it. -/
theorem elem_stays {α : Type} {P : State → Prop} {x : Op α} (hi : ∀ s t, IrqFrame s t → P s → P t)
    (hf : ∀ s c, P s → P (s.setMainCtl c)) (hx : Stays P x) : Stays P (elem x) := by
  refine Stays.bind ?_ fun _ => Stays.bind (Stays.update fun s h => hf s _ h) fun _ => hx
  intro s hs
  have h := drain_frame s.env.agenda s
  rw [show boundary s = drain s.env.agenda s from rfl]
  cases hx : drain s.env.agenda s with
  | ok a t => rw [hx] at h; exact hi s t h hs
  | error e t =>
    rw [hx] at h
    obtain ⟨f, rfl⟩ := h
    intro c hc; cases hc

/-! ## Operations that run alone -/

theorem setAgenda_nil {s : State} (h : s.env.agenda = []) : s.setAgenda [] = s := by
  unfold State.setAgenda State.setEnv
  rw [← h]

/-- With nothing else to move, a boundary changes nothing. -/
theorem boundary_quiet {s : State} (ha : s.env.agenda = []) (hl : s.env.irqLine = false) : boundary s = .ok () s := by
  simp only [boundary, ha, drain, entryCond, hl, Bool.false_and, Bool.false_eq_true, if_false, setAgenda_nil ha]

/-- With nothing else to move, an elementary step is the step, one count further. -/
theorem elem_quiet {α : Type} (x : Op α) {s : State} (ha : s.env.agenda = []) (hl : s.env.irqLine = false) :
    elem x s = x (s.setMainCtl s.mainCtl.tick) := by
  unfold elem
  rw [op_bind_ok (boundary_quiet ha hl), op_bind_ok (op_update _ _)]

end Sys2Proof.Machine
end

