-- ==== Sys2Proof/Laws/Alone.lean ====
section
/-! SUPPORT. Laws/Alone.lean: what each shared operation does when nothing but the main context moves. `Runs x s a t` says
that `x` started in `s` ends with `a` in `t`, and `Fails x s c t` that it ends with the code `c` in `t`, both up to the
control state, which the end of the whole operation sets to IDLE. -/

namespace Sys2Proof.Machine

/-! ## Running to an end -/

/-- Started in `s`, `x` ends with the value `a` in `t`, up to the main control state. -/
def Runs {α : Type} (x : Op α) (s : State) (a : α) (t : State) : Prop :=
  ∀ c, ∃ d, x (s.setMainCtl c) = .ok a (t.setMainCtl d)

/-- Started in `s`, `x` ends with the code `e` in `t`, up to the main control state. -/
def Fails {α : Type} (x : Op α) (s : State) (e : Code) (t : State) : Prop :=
  ∀ c, ∃ d, x (s.setMainCtl c) = .error (.code e) (t.setMainCtl d)

theorem Runs.bind {α β : Type} {x : Op α} {k : α → Op β} {s t u : State} {a : α} {b : β} (hx : Runs x s a t)
    (hk : Runs (k a) t b u) : Runs (x >>= k) s b u := by
  intro c
  obtain ⟨d, hd⟩ := hx c
  obtain ⟨e, he⟩ := hk d
  exact ⟨e, by rw [op_bind_ok hd, he]⟩

theorem Runs.bindFails {α β : Type} {x : Op α} {k : α → Op β} {s t u : State} {a : α} {e : Code} (hx : Runs x s a t)
    (hk : Fails (k a) t e u) : Fails (x >>= k) s e u := by
  intro c
  obtain ⟨d, hd⟩ := hx c
  obtain ⟨f, hf⟩ := hk d
  exact ⟨f, by rw [op_bind_ok hd, hf]⟩

theorem Fails.bind {α β : Type} {x : Op α} {k : α → Op β} {s t : State} {e : Code} (hx : Fails x s e t) :
    Fails (x >>= k) s e t := by
  intro c
  obtain ⟨d, hd⟩ := hx c
  exact ⟨d, op_bind_error hd⟩

theorem Runs.pure {α : Type} (a : α) (s : State) : Runs (pure a : Op α) s a s := fun c => ⟨c, rfl⟩

theorem Runs.view {α : Type} {f : State → α} {s : State} (h : ∀ c, f (s.setMainCtl c) = f s) :
    Runs (Op.view f) s (f s) s := fun c => ⟨c, by rw [op_view, h]⟩

theorem Runs.require {b : Bool} {e : Code} {s : State} (h : b = true) : Runs (Op.require b e) s () s :=
  fun c => ⟨c, by rw [op_require, if_pos h]⟩

theorem Fails.require {b : Bool} {e : Code} {s : State} (h : b = false) : Fails (Op.require b e) s e s :=
  fun c => ⟨c, by rw [op_require, h]; rfl⟩

theorem Fails.raise {α : Type} {e : Code} {s : State} : Fails (Op.raise e : Op α) s e s := fun c => ⟨c, rfl⟩

theorem Runs.attempt {x : Op Unit} {s t : State} {u : Unit} (h : Runs x s u t) : Runs (Op.attempt x) s .ok t := by
  intro c
  obtain ⟨d, hd⟩ := h c
  exact ⟨d, by simp [Op.attempt, hd]⟩

theorem Fails.attempt {x : Op Unit} {s t : State} {e : Code} (h : Fails x s e t) : Runs (Op.attempt x) s e t := by
  intro c
  obtain ⟨d, hd⟩ := h c
  exact ⟨d, by simp [Op.attempt, hd]⟩

/-- A main-context operation that runs to its end from IDLE. -/
theorem runMain_runs {i : Instr} {x : Op Value} {s t : State} {v : Value} (hi : s.mainCtl = .idle)
    (h : Runs x s v t) : runMain i x s = .next (t.finish .ok v) := by
  obtain ⟨d, hd⟩ := h (.running i 0)
  unfold runMain
  rw [hi]
  simp only [hd]
  rfl

/-- A main-context operation that ends with a code. -/
theorem runMain_fails {i : Instr} {x : Op Value} {s t : State} {e : Code} (hi : s.mainCtl = .idle)
    (h : Fails x s e t) : runMain i x s = .next (t.finish e .none) := by
  obtain ⟨d, hd⟩ := h (.running i 0)
  unfold runMain
  rw [hi]
  simp only [hd]
  rfl

/-! ## Nothing else moves -/

theorem Quiet.write {s : State} (h : Quiet s) (c : Ctx) (l : Loc) (v : Byte) : Quiet (s.afterBusWrite c l v) := by
  obtain ⟨h1, h2, h3, h4⟩ := h
  have hl := afterBusWrite_line_low s c l v h4 h2
  exact ⟨by rw [afterBusWrite_agenda, h1], hl.2, by rw [afterBusWrite_stuckAfter, h3]; rfl, hl.1⟩

theorem Quiet.read {s : State} (h : Quiet s) (c : Ctx) (l : Loc) : Quiet (s.afterBusRead c l) := by
  obtain ⟨h1, h2, h3, h4⟩ := h
  exact ⟨by rw [afterBusRead_agenda, h1], afterBusRead_irqLine s c l h2, by rw [afterBusRead_stuckAfter, h3]; rfl,
    afterBusRead_pending s c l h4⟩

theorem Quiet.writes {s : State} (h : Quiet s) (c : Ctx) (ws : List (Loc × Byte)) : Quiet (s.writes c ws) := by
  induction ws generalizing s with
  | nil => exact h
  | cons w ws ih => exact ih (h.write c w.1 w.2)

theorem Quiet.reads {s : State} (h : Quiet s) (c : Ctx) (ls : List Loc) : Quiet (s.reads c ls).2 := by
  induction ls generalizing s with
  | nil => exact h
  | cons l ls ih => exact ih (h.read c l)

theorem Quiet.polls {s : State} (h : Quiet s) (l : Loc) (m v : Byte) (k : Nat) : Quiet (s.polls l m v k).2 := by
  induction k generalizing s with
  | zero => exact h
  | succ k ih =>
    unfold State.polls
    split
    · exact h.read _ l
    · exact ih (h.read _ l)

theorem Runs.elem {α : Type} {x : Op α} {s t : State} {a : α} (hq : Quiet s) (h : Runs x s a t) :
    Runs (Machine.elem x) s a t := by
  intro c
  obtain ⟨d, hd⟩ := h c.tick
  exact ⟨d, by rw [elem_quiet x (s := s.setMainCtl c) hq.1 hq.2.1]; exact hd⟩

theorem Runs.update {f : State → State} {s : State} (h : ∀ c, f (s.setMainCtl c) = (f s).setMainCtl c) :
    Runs (Op.update f) s () (f s) := fun c => ⟨c, by rw [op_update, h]⟩

theorem Runs.mainUpdate {f : State → State} {s : State} (hq : Quiet s)
    (h : ∀ c, f (s.setMainCtl c) = (f s).setMainCtl c) : Runs (Machine.mainUpdate f) s () (f s) :=
  Runs.elem hq (Runs.update h)

theorem Runs.mainEmit {s : State} (e : OutEvent) (hq : Quiet s) : Runs (Machine.mainEmit e) s () (s.emit e) :=
  Runs.mainUpdate hq fun _ => rfl

theorem Runs.mainRead {s : State} {l : Loc} (hq : Quiet s) (hl : l.inRange = true) :
    Runs (Machine.mainRead l) s (s.env.read s.par.reg l).1 (s.afterBusRead .main l) :=
  Runs.elem hq fun c => ⟨c, busRead_run hl hq.2.2.1⟩

theorem Runs.mainWrite {s : State} {l : Loc} (v : Byte) (hq : Quiet s) (hl : l.inRange = true) :
    Runs (Machine.mainWrite l v) s () (s.afterBusWrite .main l v) :=
  Runs.elem hq fun c => ⟨c, busWrite_run hl hq.2.2.1⟩

/-! ## Sequences of transactions -/

theorem State.writes_append (c : Ctx) (a b : List (Loc × Byte)) (s : State) :
    s.writes c (a ++ b) = (s.writes c a).writes c b := by
  induction a generalizing s with
  | nil => rfl
  | cons w a ih => exact ih _

@[simp] theorem writes_par (c : Ctx) (ws : List (Loc × Byte)) (s : State) : (s.writes c ws).par = s.par := by
  induction ws generalizing s with
  | nil => rfl
  | cons w ws ih => exact ih _

@[simp] theorem reads_par (c : Ctx) (ls : List Loc) (s : State) : (s.reads c ls).2.par = s.par := by
  induction ls generalizing s with
  | nil => rfl
  | cons l ls ih => exact ih _

theorem reads_append (c : Ctx) (a b : List Loc) (s : State) :
    s.reads c (a ++ b) = ((s.reads c a).1 ++ ((s.reads c a).2.reads c b).1, ((s.reads c a).2.reads c b).2) := by
  induction a generalizing s with
  | nil => rfl
  | cons l a ih => simp only [List.cons_append, State.reads, ih]

@[simp] theorem reads_length (c : Ctx) (ls : List Loc) (s : State) : (s.reads c ls).1.length = ls.length := by
  induction ls generalizing s with
  | nil => rfl
  | cons l ls ih => simp [State.reads, ih]

/-- A list of writes changes the environment and the trace, nothing else. -/
theorem writes_frame (c : Ctx) (ws : List (Loc × Byte)) (s : State) :
    s.writes c ws = { s with env := (s.writes c ws).env, bus := (s.writes c ws).bus } := by
  induction ws generalizing s with
  | nil => rfl
  | cons w ws ih =>
    show State.writes c ws (s.afterBusWrite c w.1 w.2) = _
    rw [ih]; rfl

/-- A list of reads changes the environment and the trace, nothing else. -/
theorem reads_frame (c : Ctx) (ls : List Loc) (s : State) :
    (s.reads c ls).2 = { s with env := (s.reads c ls).2.env, bus := (s.reads c ls).2.bus } := by
  induction ls generalizing s with
  | nil => rfl
  | cons l ls ih =>
    show (State.reads c ls (s.afterBusRead c l)).2 = _
    rw [ih]; rfl

/-- A bounded poll changes the environment and the trace, nothing else. -/
theorem polls_frame (l : Loc) (m v : Byte) (k : Nat) (s : State) :
    (s.polls l m v k).2 = { s with env := (s.polls l m v k).2.env, bus := (s.polls l m v k).2.bus } := by
  induction k generalizing s with
  | zero => rfl
  | succ k ih =>
    unfold State.polls
    split
    · rfl
    · rw [ih]; rfl

theorem fifoAt_append (b : Loc) (off : Nat) (xs ys : List Byte) :
    fifoAt b off (xs ++ ys) = fifoAt b off xs ++ fifoAt b (off + xs.length) ys := by
  induction xs generalizing off with
  | nil => rfl
  | cons x xs ih => simp only [List.cons_append, fifoAt, ih, List.length_cons, Nat.add_assoc, Nat.add_comm 1]

theorem locsAt_append (b : Loc) (off m n : Nat) : locsAt b off (m + n) = locsAt b off m ++ locsAt b (off + m) n := by
  induction m generalizing off with
  | zero => simp [locsAt]
  | succ m ih =>
    rw [show m + 1 + n = (m + n) + 1 by omega]
    simp only [locsAt, List.cons_append, ih]
    rw [show off + 1 + m = off + (m + 1) by omega]

@[simp] theorem locsAt_length (b : Loc) (off n : Nat) : (locsAt b off n).length = n := by
  induction n generalizing off with
  | zero => rfl
  | succ n ih => simp [locsAt, ih]

/-- Addresses in a window that fits its space are in range (20 R62). -/
theorem locPlus_inRange {l : Loc} {n k : Nat} (h : l.windowInRange n = true) (hk : k < n) :
    (locPlus l k).inRange = true := by
  obtain ⟨sp, a⟩ := l
  have h' : a.toNat + n ≤ sp.size := of_decide_eq_true h
  have hs : sp.size ≤ 1024 := by cases sp <;> simp [Space.size]
  refine decide_eq_true ?_
  show (a + BitVec.ofNat 12 k).toNat < sp.size
  rw [BitVec.toNat_add, BitVec.toNat_ofNat]
  have : a.toNat + k % 2 ^ 12 < 2 ^ 12 := by omega
  omega

theorem Runs.wrFifo {b : Loc} {n : Nat} (hb : b.windowInRange n = true) (off : Nat) (vs : List Byte) {s : State}
    (hq : Quiet s) (hn : off + vs.length ≤ n) :
    Runs (Machine.wrFifo b off vs) s () (s.writes .main (fifoAt b off vs)) := by
  induction vs generalizing off s with
  | nil => exact Runs.pure _ _
  | cons v vs ih =>
    simp only [List.length_cons] at hn
    exact Runs.bind (Runs.mainWrite v hq (locPlus_inRange hb (by omega))) (ih (off + 1) (hq.write _ _ _) (by omega))

theorem Runs.wrPair {lo hi : Loc} (v : Half) {s : State} (hq : Quiet s) (hl : lo.inRange = true)
    (hh : hi.inRange = true) : Runs (Machine.wrPair lo hi v) s () (s.writes .main (pairAt lo hi v)) :=
  Runs.bind (Runs.mainWrite _ hq hl) (Runs.mainWrite _ (hq.write _ _ _) hh)

theorem Runs.rdPair {lo hi : Loc} {s : State} (hq : Quiet s) (hl : lo.inRange = true) (hh : hi.inRange = true) :
    Runs (Machine.rdPair lo hi) s
      (half (byteAt (s.reads .main [lo, hi]).1 1) (byteAt (s.reads .main [lo, hi]).1 0)) (s.reads .main [lo, hi]).2 :=
  Runs.bind (Runs.mainRead hq hl) (Runs.bind (Runs.mainRead (hq.read _ _) hh) (Runs.pure _ _))

theorem Runs.pollUntil {l : Loc} (m v : Byte) (k : Nat) {s : State} (hq : Quiet s) (hl : l.inRange = true) :
    Runs (Machine.pollUntil l m v k) s (s.polls l m v k).1 (s.polls l m v k).2 := by
  induction k generalizing s with
  | zero => exact Runs.pure _ _
  | succ k ih =>
    refine Runs.bind (Runs.mainRead hq hl) ?_
    unfold State.polls
    simp only [pollMatch, decide_eq_true_eq]
    split
    · exact Runs.pure _ _
    · exact ih (hq.read _ _)

theorem Runs.writeCal (ws : List (Loc × Byte)) {s : State} (hq : Quiet s) (h : ∀ w ∈ ws, w.1.inRange = true) :
    Runs (Machine.writeCal ws) s () (s.writes .main ws) := by
  induction ws generalizing s with
  | nil => exact Runs.pure _ _
  | cons w ws ih =>
    exact Runs.bind (Runs.mainWrite _ hq (h w (by simp))) (ih (hq.write _ _ _) fun x hx => h x (by simp [hx]))

theorem Runs.writeEadr {b : Loc} {n : Nat} (hb : b.windowInRange n = true) (off : Nat) (vs : List Byte) {s : State}
    (hq : Quiet s) (hn : off + vs.length ≤ n) :
    Runs (Machine.writeEadr b off vs) s () (s.writes .main (fifoAt b off vs)) := by
  induction vs generalizing off s with
  | nil => exact Runs.pure _ _
  | cons v vs ih =>
    simp only [List.length_cons] at hn
    exact Runs.bind (Runs.mainWrite v hq (locPlus_inRange hb (by omega))) (ih (off + 1) (hq.write _ _ _) (by omega))

theorem Runs.requireReady {s : State} (h : s.drv = .ready) : Runs Machine.requireReady s () s :=
  Runs.bind (Runs.view fun _ => rfl) (Runs.require (by simp [h]))

theorem Fails.requireReady {s : State} (h : s.drv ≠ .ready) : Fails Machine.requireReady s .notReady s :=
  Runs.bindFails (Runs.view fun _ => rfl) (Fails.require (by simp [h]))

/-! ## What a well-formed configuration gives -/

/-- Every register of a well-formed map is a location that exists, and so are the windows. -/
theorem RegMap.ranges {r : RegMap} (h : r.wf = true) :
    (∀ l ∈ [r.softrst, r.rxflush, r.sadrl, r.sadrh, r.panl, r.panh, r.rxmcr, r.txmcr, r.order, r.intcon, r.intstat,
      r.txncon, r.txstat, r.rxctl, r.rfctl, r.channel, r.rfstate], l.inRange = true) ∧
    r.eadr0.windowInRange 8 = true ∧ r.txfifo.windowInRange 129 = true ∧ r.rxfifo.windowInRange 130 = true := by
  simp only [RegMap.wf, RegMap.allInRange, RegMap.fifosOk, Bool.and_eq_true, List.all_eq_true] at h
  obtain ⟨⟨⟨⟨⟨⟨ha, he⟩, ⟨⟨⟨ht, hr⟩, htl⟩, hrl⟩, -⟩, -⟩, -⟩, -⟩, -⟩ := h
  have ht := of_decide_eq_true ht
  have hr := of_decide_eq_true hr
  have htl := of_decide_eq_true htl
  have hrl := of_decide_eq_true hrl
  refine ⟨ha, he, ?_, ?_⟩
  · simp only [Loc.windowInRange, ht, Space.size, decide_eq_true_eq]; omega
  · simp only [Loc.windowInRange, hr, Space.size, decide_eq_true_eq]; omega

theorem Params.reg_wf {p : Params} (h : p.wf = true) : p.reg.wf = true := by
  simp only [Params.wf, Bool.and_eq_true] at h
  exact h.1.1.1.1.1.1.1.1

theorem Params.calSeq_inRange {p : Params} (h : p.wf = true) : ∀ w ∈ p.calSeq, w.1.inRange = true := by
  simp only [Params.wf, Bool.and_eq_true, List.all_eq_true] at h
  intro w hw
  have := h.1.1.1.1.1.1.1.2 w hw
  simp only [calEntryOk, Bool.and_eq_true] at this
  exact this.1.1.1.1

end Sys2Proof.Machine
end

