-- ==== Sys2Proof/Laws/PerInstr.lean ====
section
/-! SUPPORT. Laws/PerInstr.lean: the family `EncodedAt`, a statement about every row as syntax: the port and the number of
bytes of its encoding are those of its format (30 R71, R72, R79, R81, R87). One lemma per constructor. -/

namespace Sys2Proof.Laws.EncodedAt

/-- The port a row's bits stand at; none for the rows no bit pattern selects. -/
def portOf : Instr → Option Port
  | .srd _ => some .bus
  | .swr _ _ => some .bus
  | .lrd _ => some .bus
  | .lwr _ _ => some .bus
  | .irq => none
  | .rxpath => some .intstat
  | .txpath => some .intstat
  | .onReceive => none
  | .onTxComplete => none
  | .m07 _ => some (.msg false)
  | .m01a => some (.msg false)
  | .m13 _ => some (.msg false)
  | .m08 _ => some (.msg false)
  | .m01d _ _ => some (.msg true)
  | .m02 _ => some (.msg false)
  | .m0a _ => some (.msg false)
  | .mxx _ => some (.msg false)
  | .malformed => some (.msg false)
  | _ => some .host

/-- How many bytes the master or the sender puts out for a row. -/
def bytesOf : Instr → Nat
  | .srd _ => 1
  | .swr _ _ => 2
  | .lrd _ => 2
  | .lwr _ _ => 3
  | .setChannel _ => 2
  | .setPan _ => 3
  | .setShortAddress _ => 3
  | .setPromiscuous _ => 2
  | .setPanController _ => 2
  | .send _ payload => 4 + payload.length
  | .send16Ack _ payload => 4 + payload.length
  | .irq => 0
  | .onReceive => 0
  | .onTxComplete => 0
  | .m07 _ => 2
  | .m13 _ => 2
  | .m08 _ => 3
  | .m01d _ _ => 3
  | .m02 _ => 3
  | .m0a _ => 2
  | .malformed => 0
  | _ => 1

/-- The encoding of the row stands at its port and has its length. -/
def Statement (i : Instr) : Prop :=
  ∀ p : Params, (encode p i).map (·.1) = portOf i ∧ ((encode p i).map (·.2.length)).getD 0 = bytesOf i

theorem srd (a : BitVec 8) : Statement (.srd a) := fun _ => ⟨rfl, rfl⟩
theorem swr (a : BitVec 8) (v : Byte) : Statement (.swr a v) := fun _ => ⟨rfl, rfl⟩
theorem lrd (a : BusAddr) : Statement (.lrd a) := fun _ => ⟨rfl, rfl⟩
theorem lwr (a : BusAddr) (v : Byte) : Statement (.lwr a v) := fun _ => ⟨rfl, rfl⟩
theorem reset : Statement .reset := fun _ => ⟨rfl, rfl⟩
theorem init : Statement .init := fun _ => ⟨rfl, rfl⟩
theorem setChannel (n : Byte) : Statement (.setChannel n) := fun _ => ⟨rfl, rfl⟩
theorem setPan (v : Half) : Statement (.setPan v) := fun _ => ⟨rfl, rfl⟩
theorem getPan : Statement .getPan := fun _ => ⟨rfl, rfl⟩
theorem setShortAddress (v : Half) : Statement (.setShortAddress v) := fun _ => ⟨rfl, rfl⟩
theorem getShortAddress : Statement .getShortAddress := fun _ => ⟨rfl, rfl⟩
theorem setPromiscuous (b : Bool) : Statement (.setPromiscuous b) := fun _ => ⟨rfl, rfl⟩
theorem setPanController (b : Bool) : Statement (.setPanController b) := fun _ => ⟨rfl, rfl⟩
theorem rxDisable : Statement .rxDisable := fun _ => ⟨rfl, rfl⟩
theorem rxEnable : Statement .rxEnable := fun _ => ⟨rfl, rfl⟩

theorem send (f : Half) (payload : List Byte) : Statement (.send f payload) := fun _ => ⟨rfl, (Nat.add_comm 4 payload.length).symm⟩

theorem send16Ack (d : Half) (payload : List Byte) : Statement (.send16Ack d payload) := fun _ => ⟨rfl, (Nat.add_comm 4 payload.length).symm⟩

theorem poll : Statement .poll := fun _ => ⟨rfl, rfl⟩
theorem getRxRecord : Statement .getRxRecord := fun _ => ⟨rfl, rfl⟩
theorem getTxRecord : Statement .getTxRecord := fun _ => ⟨rfl, rfl⟩
theorem irq : Statement .irq := fun _ => ⟨rfl, rfl⟩
theorem rxpath : Statement .rxpath := fun _ => ⟨rfl, rfl⟩
theorem txpath : Statement .txpath := fun _ => ⟨rfl, rfl⟩
theorem onReceive : Statement .onReceive := fun _ => ⟨rfl, rfl⟩
theorem onTxComplete : Statement .onTxComplete := fun _ => ⟨rfl, rfl⟩
theorem m07 (p1 : Byte) : Statement (.m07 p1) := fun _ => ⟨rfl, rfl⟩
theorem m01a : Statement .m01a := fun _ => ⟨rfl, rfl⟩
theorem m13 (p1 : Byte) : Statement (.m13 p1) := fun _ => ⟨rfl, rfl⟩
theorem m08 (p2 : Byte) : Statement (.m08 p2) := fun _ => ⟨rfl, rfl⟩
theorem m01d (p1 p2 : Byte) : Statement (.m01d p1 p2) := fun _ => ⟨rfl, rfl⟩
theorem m02 (p2 : Byte) : Statement (.m02 p2) := fun _ => ⟨rfl, rfl⟩
theorem m0a (p1 : Byte) : Statement (.m0a p1) := fun _ => ⟨rfl, rfl⟩
theorem mxx (t : Byte) : Statement (.mxx t) := fun _ => ⟨rfl, rfl⟩
theorem malformed : Statement .malformed := fun _ => ⟨rfl, rfl⟩

end Sys2Proof.Laws.EncodedAt
end

