-- ==== Sys2Proof/Laws/RunAlone.lean ====
section
/-! SUPPORT. Laws/RunAlone.lean: what the shared operations of the interrupt context do when the environment does not move
meanwhile. `IrqRuns x s a t` says that `x` started in `s` ends with `a` in `t`, up to the interrupt control state. -/

namespace Sys2Proof.Machine

/-- Started in `s`, `x` ends with the value `a` in `t`, up to the interrupt control state. -/
def IrqRuns {α : Type} (x : Op α) (s : State) (a : α) (t : State) : Prop :=
  ∀ c, ∃ d, x (s.setIrqCtl c) = .ok a (t.setIrqCtl d)

/-- The environment makes no move during the run, and the bus does not stick. -/
abbrev Still (s : State) : Prop := s.env.runMoves = [] ∧ s.env.stuckAfter = none

theorem IrqRuns.bind {α β : Type} {x : Op α} {k : α → Op β} {s t u : State} {a : α} {b : β} (hx : IrqRuns x s a t)
    (hk : IrqRuns (k a) t b u) : IrqRuns (x >>= k) s b u := by
  intro c
  obtain ⟨d, hd⟩ := hx c
  obtain ⟨e, he⟩ := hk d
  exact ⟨e, by rw [op_bind_ok hd, he]⟩

theorem IrqRuns.pure {α : Type} (a : α) (s : State) : IrqRuns (pure a : Op α) s a s := fun c => ⟨c, rfl⟩

theorem IrqRuns.view {α : Type} {f : State → α} {s : State} (h : ∀ c, f (s.setIrqCtl c) = f s) :
    IrqRuns (Op.view f) s (f s) s := fun c => ⟨c, by rw [op_view, h]⟩

theorem IrqRuns.elem {α : Type} {x : Op α} {s t : State} {a : α} (hq : Still s) (h : IrqRuns x s a t) :
    IrqRuns (irqElem x) s a t := by
  intro c
  obtain ⟨d, hd⟩ := h c.tick
  refine ⟨d, ?_⟩
  have hb : runBoundary (s.setIrqCtl c) = .ok () (s.setIrqCtl c) := by
    unfold runBoundary
    rw [State.setIrqCtl_env, hq.1]
  unfold irqElem
  rw [op_bind_ok hb, op_bind_ok (op_update _ _)]
  exact hd

theorem IrqRuns.update {f : State → State} {s : State} (hq : Still s)
    (h : ∀ c, f (s.setIrqCtl c) = (f s).setIrqCtl c) : IrqRuns (irqElem (Op.update f)) s () (f s) :=
  IrqRuns.elem hq fun c => ⟨c, by rw [op_update, h]⟩

theorem IrqRuns.read {s : State} {l : Loc} (hq : Still s) (hl : l.inRange = true) :
    IrqRuns (irqRead l) s (s.env.read s.par.reg l).1 (s.afterBusRead .irq l) :=
  IrqRuns.elem hq fun c => ⟨c, busRead_run hl hq.2⟩

theorem IrqRuns.write {s : State} {l : Loc} (v : Byte) (hq : Still s) (hl : l.inRange = true) :
    IrqRuns (irqWrite l v) s () (s.afterBusWrite .irq l v) :=
  IrqRuns.elem hq fun c => ⟨c, busWrite_run hl hq.2⟩

theorem Still.read {s : State} (h : Still s) (c : Ctx) (l : Loc) : Still (s.afterBusRead c l) := by
  simp only [Still, afterBusRead_runMoves, afterBusRead_stuckAfter, h.1, h.2, Option.map_none, and_self]

theorem Still.write {s : State} (h : Still s) (c : Ctx) (l : Loc) (v : Byte) : Still (s.afterBusWrite c l v) := by
  simp only [Still, afterBusWrite_runMoves, afterBusWrite_stuckAfter, h.1, h.2, Option.map_none, and_self]

theorem Still.reads {s : State} (h : Still s) (c : Ctx) (ls : List Loc) : Still (s.reads c ls).2 := by
  induction ls generalizing s with
  | nil => exact h
  | cons l ls ih => exact ih (h.read c l)

/-- A FIFO read of `n` bytes from an offset is the reads of those locations, in ascending order. -/
theorem IrqRuns.readFifo {b : Loc} {m : Nat} (hb : b.windowInRange m = true) (off n : Nat) {s : State} (hq : Still s)
    (hn : off + n ≤ m) :
    IrqRuns (Machine.readFifo b off n) s (s.reads .irq (locsAt b off n)).1 (s.reads .irq (locsAt b off n)).2 := by
  induction n generalizing off s with
  | zero => exact IrqRuns.pure _ _
  | succ n ih =>
    exact IrqRuns.bind (IrqRuns.read hq (locPlus_inRange hb (by omega)))
      (IrqRuns.bind (ih (off + 1) (hq.read _ _) (by omega)) (IrqRuns.pure _ _))

end Sys2Proof.Machine
end

