-- ==== Sys2Proof/Tests/Slice0.lean ====
section
/-! SUPPORT. Tests/Slice0.lean: small tests, each with its expected result from spec/ (the examples of the rules, the vectors
of spec/95_test_vectors.md, or an encoding written out by hand), and a witness for every statement with hypotheses. -/

namespace Sys2Proof.Tests

open Sys2Proof Sys2Proof.Machine

/-! ## Well-formedness: an ill-formed term for each check -/

theorem test_wf_refuses_instructions :
    Instr.wf (.srd 64) = false ∧ Instr.wf (.swr 0xFF 0) = false ∧ Instr.wf (.lrd 1024) = false ∧
    Instr.wf (.lwr 0xFFF 0) = false ∧ Instr.wf (.mxx 0x13) = false := by decide

/-- A payload too long for its length byte (30 R87). -/
theorem test_wf_refuses_long_payloads (p : List Byte) (h : p.length = 256) :
    Instr.wf (.send 0 p) = false ∧ Instr.wf (.send16Ack 0 p) = false :=
  ⟨decide_eq_false (by rw [h]; decide), decide_eq_false (by rw [h]; decide)⟩

/-- A register outside its space, FIFO windows that overlap or leave the space or lie in the short space, a trigger in
the long space, equal cause bits, a CCA bit outside 1 to 5 (00 R6, 20 R61, R62, 30 R78, R79). -/
theorem test_wf_refuses_register_maps :
    RegMap.wf { RegMap.default with panl := .s 0x40 } = false ∧
    RegMap.wf { RegMap.default with eadr0 := .s 0x39 } = false ∧
    RegMap.wf { RegMap.default with rxfifo := .l 0x080 } = false ∧
    RegMap.wf { RegMap.default with rxfifo := .l 0x37F } = false ∧
    RegMap.wf { RegMap.default with txfifo := .s 0x000 } = false ∧
    RegMap.wf { RegMap.default with txncon := .l 0x01B } = false ∧
    RegMap.wf { RegMap.default with bTxif := 3 } = false ∧
    RegMap.wf { RegMap.default with bCcafail := 0 } = false ∧
    RegMap.wf { RegMap.default with bCcafail := 6 } = false := by decide

/-- A calibration write to a forbidden register, no poll, a channel outside 11 to 26, a long trailer, a repeated identity
(00 R6, 41 R113). -/
theorem test_wf_refuses_parameters :
    Params.wf { Params.default with calSeq := [(.s 0x1B, 0x01)] } = false ∧
    Params.wf { Params.default with calSeq := [(.l 0x000, 0x01)] } = false ∧
    Params.wf { Params.default with maxPoll := 0 } = false ∧
    Params.wf { Params.default with defaultChannel := 10 } = false ∧
    Params.wf { Params.default with cfgChannel := 27 } = false ∧
    Params.wf { Params.default with rxTrailerLen := 3 } = false ∧
    Params.wf { Params.default with whitelist := [Vector.replicate 8 1, Vector.replicate 8 1] } = false ∧
    Params.wf Params.default = true := by decide

/-! ## Decoding: every constructor from bytes written out by hand -/

/-- V1.2, V1.6, V1.16, V1.12 (30 R71, R72): the address and direction bits of each transaction. -/
theorem test_decode_bus :
    decode Params.default .bus [0b01100010] = .ok (.srd 0x31) ∧
    decode Params.default .bus [0b01111111, 0x60] = .ok (.swr 0x3F 0x60) ∧
    decode Params.default .bus [0b11111111, 0b11100000] = .ok (.lrd 0x3FF) ∧
    decode Params.default .bus [0b10000000, 0b00110000, 0x19] = .ok (.lwr 0x001 0x19) ∧
    decode Params.default .bus [0b10000000, 0b00100001] = .error .badDirection ∧
    decode Params.default .bus [0x55] = .error .missingOperand := by decide

/-- V4, V5: the other direction bit. -/
theorem test_decode_short_direction :
    decode { Params.default with shortDirWr := 0 } .bus [0x54, 0x07] = .ok (.swr 0x2A 0x07) ∧
    decode { Params.default with shortDirWr := 0 } .bus [0x63] = .ok (.srd 0x31) := by decide

/-- 30 R87: code and operand bytes. -/
theorem test_decode_host :
    decodeHost [0x00] = .ok .reset ∧ decodeHost [0x01] = .ok .init ∧ decodeHost [0x02, 15] = .ok (.setChannel 15) ∧
    decodeHost [0x03, 0x34, 0x12] = .ok (.setPan 0x1234) ∧ decodeHost [0x04] = .ok .getPan ∧
    decodeHost [0x05, 0x02, 0x42] = .ok (.setShortAddress 0x4202) ∧ decodeHost [0x06] = .ok .getShortAddress ∧
    decodeHost [0x07, 0x01] = .ok (.setPromiscuous true) ∧ decodeHost [0x08, 0x00] = .ok (.setPanController false) ∧
    decodeHost [0x09] = .ok .rxDisable ∧ decodeHost [0x0A] = .ok .rxEnable ∧
    decodeHost [0x0B, 0x61, 0xCC, 0x02, 0xAA, 0xBB] = .ok (.send 0xCC61 [0xAA, 0xBB]) ∧
    decodeHost [0x0C, 0x02, 0x42, 0x00] = .ok (.send16Ack 0x4202 []) ∧ decodeHost [0x0D] = .ok .poll ∧
    decodeHost [0x0E] = .ok .getRxRecord ∧ decodeHost [0x0F] = .ok .getTxRecord := by decide

/-- 30 R85, 60 R190: codes without a row, missing operand bytes. -/
theorem test_decode_host_rejects :
    decodeHost [] = .error .empty ∧ decodeHost [0x10] = .error .unknownCommand ∧
    decodeHost [0xFF] = .error .unknownCommand ∧ decodeHost [0x03, 0x34] = .error .missingOperand ∧
    decodeHost [0x0B, 0x61, 0xCC, 0x02, 0xAA] = .error .missingOperand ∧
    decodeHost [0x07, 0x02] = .error .badOperand := by decide

/-- 30 R79, 42 R141: RX is bit 3, TX is bit 0, RX first. -/
theorem test_decode_intstat :
    decode Params.default .intstat [0x08] = .ok .rxpath ∧ decode Params.default .intstat [0x01] = .ok .txpath ∧
    intstatPaths Params.default 0x09 = [.rxpath, .txpath] ∧
    decode Params.default .intstat [0xF6] = .error .noCause := by decide

/-- 30 R82: the rows of the message table, each at its minimum length. -/
theorem test_decode_msg :
    decodeMsg false [0x07, 0x0F] = .m07 0x0F ∧ decodeMsg false [0x01] = .m01a ∧ decodeMsg true [0x13, 0x2A] = .m13 0x2A ∧
    decodeMsg true [0x08, 0x00, 0x01] = .m08 0x01 ∧ decodeMsg true [0x01, 0x05, 0x01] = .m01d 0x05 0x01 ∧
    decodeMsg false [0x02, 0x00, 0x01, 0xAA] = .m02 0x01 ∧ decodeMsg false [0x0A, 0x09] = .m0a 0x09 ∧
    decodeMsg true [0xFF] = .mxx 0xFF ∧ decodeMsg true [0x09] = .mxx 0x09 := by decide

/-- 43 R163: one byte short of the minimum is malformed, and so is the empty payload. -/
theorem test_decode_msg_malformed :
    decodeMsg false [] = .malformed ∧ decodeMsg false [0x07] = .malformed ∧ decodeMsg true [0x13] = .malformed ∧
    decodeMsg true [0x08, 0x01] = .malformed ∧ decodeMsg true [0x01, 0x05] = .malformed ∧
    decodeMsg true [0x02, 0x00] = .malformed ∧ decodeMsg true [0x0A] = .malformed := by decide

/-- Words of spec/opcode_table.json as that file numbers their bits: byte 0 is the high byte of a transaction's word. -/
theorem test_decode_table_words :
    decodeTableWord 16 0x6200 = some (.srd 0x31) ∧ decodeTableWord 16 0x5507 = some (.swr 0x2A 0x07) ∧
    decodeTableWord 24 0xE00000 = some (.lrd 0x300) ∧ decodeTableWord 24 0x803019 = some (.lwr 0x001 0x19) ∧
    decodeTableWord 8 0x0D = some .poll ∧ decodeTableWord 8 0x13 = some (.m13 0) := by decide

/-! ## States to test on -/

/-- The next state of an outcome. -/
def nextOf : Outcome → State
  | .next t => t
  | _ => State.reset

/-- The outcome is a next state. -/
def isNext : Outcome → Bool
  | .next _ => true
  | _ => false

theorem next_of {o : Outcome} (h : isNext o = true) : o = .next (nextOf o) := by
  cases o <;> simp_all [isNext, nextOf]

/-- `S_READY` of 95 section 0, as far as the tests look. -/
def ready : State :=
  (State.reset.setDrv .ready).setCfg
    { State.reset.cfg with pan := 0x1234, channel := 15, panController := true }

/-- A byte scripted for a location. -/
def script (s : State) (l : Loc) (v : Byte) : State := s.setEnv { s.env with scripts := s.env.scripts ++ [(l, v)] }

/-- A byte the transceiver holds. -/
def holding (s : State) (l : Loc) (v : Byte) : State := s.setEnv (s.env.poke l v)

/-- Devices A and B of 95 section 0. -/
def idA : List Byte := [0xA0, 0xA1, 0xA2, 0xA3, 0xA4, 0xA5, 0xA6, 0xA7]
def idE : List Byte := [0xE0, 0xE1, 0xE2, 0xE3, 0xE4, 0xE5, 0xE6, 0xE7]

/-- The image of the example of 42 R142. -/
def imageA : List Byte := [0x17, 0x41, 0xCC, 0x07, 0x34, 0x12] ++ idE ++ idA ++ [0x0A, 0x09, 0x6C, 0xB4]

/-- A frame of device A with the payload. -/
def frameA (payload : List Byte) : RxRec :=
  { valid := true, frameLen := 21 + payload.length, hdrLen := 21, fcf := 0xCC41, seq := 7, pan := 0x1234, dstLen := 8,
    dst := idE, srcLen := 8, src := idA, payloadLen := payload.length, payload := payload, lqi := 0x6C, rssi := 0xB4 }

/-- Device A with these values. -/
def deviceA (s : State) (online : Bool) (sequence : Byte) : State :=
  s.setDev (s.dev.modify 0 fun d => { d with online := online, sequence := sequence })

/-- `ready` with a frame of A in the record and as the decoder's snapshot. -/
def heard (online : Bool) (sequence : Byte) (payload : List Byte) : State :=
  let s := (deviceA ready online sequence).setRxRec (frameA payload)
  s.setDec (decCtx s.par s.dev s.rxRec)

/-- The wire bytes of the trace. -/
def wires (o : Outcome) : List (List Byte) := (nextOf o).bus.map (·.wire)

/-- The data bytes of the trace. -/
def datas (o : Outcome) : List Byte := (nextOf o).bus.map (·.data)

/-! ## Register bus -/

/-- V1.2, V2: `SRD 0x31` puts 0x62 on the wire, `SRD 0x40` nothing. -/
theorem test_srd : wires (exec (.srd 0x31) ready) = [[0x62]] ∧ wires (exec (.srd 0x40) ready) = [] := by decide

/-- V1.1: `SWR 0x2A, 0x07` is `55 07`. -/
theorem test_swr : wires (exec (.swr 0x2A 0x07) ready) = [[0x55, 0x07]] := by decide

/-- V1.11, V3: `LRD 0x20F` puts `C1 E0` on the wire; `LRD 0x400` is refused. -/
theorem test_lrd : wires (exec (.lrd 0x20F) ready) = [[0xC1, 0xE0]] ∧
    (nextOf (exec (.lrd 0x400) ready)).result.code = .badBusAddr := by decide

/-- V1.15: `LWR 0x3FF, 0xAA` is `FF F0 AA`. -/
theorem test_lwr : wires (exec (.lwr 0x3FF 0xAA) ready) = [[0xFF, 0xF0, 0xAA]] := by decide

/-! ## Radio driver -/

/-- V29: `reset` from `S_READY`. -/
theorem test_reset :
    let t := nextOf (exec .reset ready)
    t.drv = .cold ∧ t.rstN = true ∧ t.bus = [] ∧ t.cfg.pan = 0x1234 ∧
    t.pins = [.rst false, .waitAtLeast 300, .rst true, .waitAtLeast 300] := by decide

/-- A transceiver that answers both polls of `initialize` at the first read. -/
def answering : State := script (script State.reset (.s 0x2A) 0x00) (.l 0x20F) 0xA0

/-- 41 R112: 33 transactions with the calibration sequence of `TC` (1 + 1 + 1 + 2 + 2 + 8 + 13 + 1 + 1 + 3). -/
theorem test_init :
    let t := nextOf (exec .init answering)
    t.drv = .ready ∧ t.bus.length = 33 ∧ t.cfg.channel = 11 ∧ t.cfg.pan = 0xFFFF ∧
    (t.bus.take 4).map (·.wire) = [[0x55, 0x07], [0x54], [0x1B, 0x01], [0x07, 0xFF]] := by decide

/-- A transceiver whose soft reset never ends. -/
def neverReset : State :=
  script (script (script State.reset (.s 0x2A) 0x01) (.s 0x2A) 0x04) (.s 0x2A) 0x07

/-- 60 R192: three reads, then FAULTED with code 1. -/
theorem test_init_timeout :
    let t := nextOf (exec .init neverReset)
    t.drv = .faulted ∧ t.result.code.number = 0x01 ∧ t.bus.length = 4 := by decide

/-- V20.2, V21.2. -/
theorem test_set_channel :
    wires (exec (.setChannel 15) ready) = [[0xC0, 0x10, 0x43], [0x6D, 0x04], [0x6D, 0x00]] ∧
    (nextOf (exec (.setChannel 27) ready)).result.code = .badChannel := by decide

/-- V23.1, V23.2: `set_pan 0xBEEF`, then `get_pan`. -/
theorem test_set_pan_get_pan :
    let t := nextOf (exec (.setPan 0xBEEF) ready)
    wires (exec (.setPan 0xBEEF) ready) = [[0x03, 0xEF], [0x05, 0xBE]] ∧ t.cfg.pan = 0xBEEF ∧
    (nextOf (exec .getPan t)).result = ⟨.ok, .half 0xBEEF⟩ := by decide

/-- V23.4: the transceiver's answer, not `cfg.pan`. -/
theorem test_get_pan_scripted :
    (nextOf (exec .getPan (script (script ready (.s 1) 0x00) (.s 2) 0x80))).result = ⟨.ok, .half 0x8000⟩ := by decide

/-- V24.1, V24.2. -/
theorem test_set_short_get_short :
    let t := nextOf (exec (.setShortAddress 0x4202) ready)
    datas (exec (.setShortAddress 0x4202) ready) = [0x02, 0x42] ∧ t.cfg.short = 0x4202 ∧
    (nextOf (exec .getShortAddress t)).result = ⟨.ok, .half 0x4202⟩ := by decide

/-- V25.1, V25.4. -/
theorem test_set_promiscuous :
    datas (exec (.setPromiscuous true) (holding ready (.s 0) 0x08)) = [0x08, 0x09] ∧
    datas (exec (.setPromiscuous false) (script ready (.s 0) 0xFF)) = [0xFF, 0xFE] := by decide

/-- V26.1, V26.2. -/
theorem test_set_pan_controller :
    datas (exec (.setPanController true) (holding (holding ready (.s 0) 0x00) (.s 0x11) 0x3C)) =
      [0x00, 0x08, 0x3C, 0x1C, 0xFF] ∧
    datas (exec (.setPanController false) (holding ready (.s 0) 0x08)) = [0x08, 0x00] := by decide

/-- V27, V28. -/
theorem test_rx_disable :
    wires (exec .rxDisable ready) = [[0x73, 0x04]] ∧
    (nextOf (exec .rxDisable State.reset)).result.code = .notReady := by decide

/-- V27. -/
theorem test_rx_enable : wires (exec .rxEnable ready) = [[0x73, 0x00]] := by decide

/-- The example of 41 R125: the association response to A, then the trigger. -/
theorem test_send :
    let o := exec (.send 0xCC61 [0x02, 0xFE, 0xFF, 0x00]) (ready.setRxRec (frameA []))
    datas o = [0x15, 0x19, 0x61, 0xCC, 0x00, 0x34, 0x12] ++ idA ++ idE ++ [0x02, 0xFE, 0xFF, 0x00] ++ [0x01] ∧
    (nextOf o).txSeq = 1 ∧ (nextOf o).irqMask = false := by decide

/-- 60 R197: the refusals of `send` in their order. -/
theorem test_send_refused :
    (nextOf (exec (.send 0x0441 []) ready)).result.code = .badAddrMode ∧
    (nextOf (exec (.send 0xCC41 (List.replicate 107 0)) ready)).result.code = .badLength ∧
    (nextOf (exec (.send 0xCC41 []) ready)).result.code = .noDest := by decide

/-- 41 R127: 9, 9 + len, FrameControl 0x8861, destination and short address low byte first, the acknowledged trigger. -/
theorem test_send16 :
    datas (exec (.send16Ack 0x4202 [0xAB]) ready) =
      [0x09, 0x0A, 0x61, 0x88, 0x00, 0x34, 0x12, 0x02, 0x42, 0xFF, 0xFF, 0xAB, 0x05] := by decide

/-- 41 R128. -/
theorem test_get_rx_record :
    (nextOf (exec .getRxRecord ready)).result = ⟨.ok, .rxRecord none⟩ ∧
    (nextOf (exec .getRxRecord (ready.setRxRec (frameA [1])))).result = ⟨.ok, .rxRecord (some (frameA [1]))⟩ := by decide

/-- 41 R129. -/
theorem test_get_tx_record :
    (nextOf (exec .getTxRecord ready)).result = ⟨.ok, .txRecord none⟩ ∧
    (nextOf (exec .getTxRecord (ready.setTxRec ⟨true, false, 3, false⟩))).result =
      ⟨.ok, .txRecord (some (false, 3, false))⟩ := by decide

/-! ## Interrupt bridge -/

/-- The image in the RX FIFO. -/
def received (image : List Byte) : State :=
  ready.setEnv { ready.env.pokeAll (.l 0x300) image with imageLen := image.length }

/-- The example of 42 R142: the record, and 28 transactions. -/
theorem test_rxpath :
    let t := nextOf (exec .rxpath (received imageA))
    t.rxRec = frameA [0x0A, 0x09] ∧ t.rxEvent = 1 ∧ t.bus.length = 28 := by decide

/-- 42 R143: a destination mode of 1 drops the frame; five transactions. -/
theorem test_rxpath_drops :
    let t := nextOf (exec .rxpath (received [0x17, 0x41, 0xC4]))
    t.rxRec.valid = false ∧ t.rxEvent = 0 ∧ t.bus.length = 5 := by decide

/-- The examples of 42 R144: 0xC1 and 0x21. -/
theorem test_txpath :
    (nextOf (exec .txpath (script ready (.s 0x24) 0xC1))).txRec = ⟨true, false, 3, false⟩ ∧
    (nextOf (exec .txpath (script ready (.s 0x24) 0x21))).txRec = ⟨true, false, 0, true⟩ := by decide

/-- A line that is high with both causes pending (42 R141: `s = 0x09`). -/
def bothCauses : State :=
  let s := received imageA
  s.setEnv { s.env.poke (.s 0x24) 0x00 with attemptReported := true, pending := 0x09, irqLine := true }

/-- Both paths run, the causes are cleared, the line falls. -/
theorem test_irq :
    let t := nextOf (exec .irq bothCauses)
    t.rxEvent = 1 ∧ t.txEvent = 1 ∧ t.env.pending = 0 ∧ t.env.irqLine = false ∧ t.irqActive = false := by decide

/-- A cause that arrives during the run waits for the next one (42 R150). -/
theorem test_irq_pending_during_run :
    let s := bothCauses.setEnv { bothCauses.env with runMoves := [[], [.raise 0x01]] }
    (nextOf (exec .irq s)).env.pending = 0x01 ∧ (nextOf (exec .irq s)).env.irqLine = true := by decide

/-- 20 R66 laws (2) and (5), 93 U9: a byte that the block writes to the RX FIFO window or to `A_TXSTAT` is fixed by no law. -/
theorem test_own_write_is_no_report :
    let e := { bothCauses.env with rxEnabled := false }
    let r := ready.par.reg
    e.fixed r (.l 0x301) = true ∧ ((e.write r (.l 0x300) 0x55).fixed r (.l 0x301) = false) ∧
    e.fixed r (.s 0x24) = true ∧ ((e.write r (.s 0x24) 0x55).fixed r (.s 0x24) = false) ∧
    ((e.write r (.s 0x24) 0x55).fixed r (.l 0x301) = true) := by decide

/-- 20 R66 law (2), 30 R77: a received image of three bytes is fixed, the older frame's byte after it is not. -/
theorem test_past_the_image :
    let r := ready.par.reg
    let e := { bothCauses.env.apply r (.rxFrame [0x00, 0x41, 0xC4, 0x07]) with rxEnabled := false }
    e.fixed r (.l 0x302) = true ∧ e.fixed r (.l 0x303) = false ∧ e.fixed r (.l 0x304) = false := by decide

/-- The state in which the main context takes its very next step. -/
def atNextStep (s : State) : State := s.setEnv { s.env with agenda := [.proceed] }

/-- 10 R32, 60 R199: `V_INTCON` enables the two causes; a pending one then raises the line (20 R66 law (3)). -/
theorem test_intcon_enables :
    let s := atNextStep (ready.setEnv { ready.env with enabled := 0, pending := 0x01 })
    let t := nextOf (exec (.swr 0x32 0xF6) s)
    t.env.enabled = 0x09 ∧ t.env.irqLine = true := by decide

/-- 20 R66 law (3): a cause that is not enabled leaves the line low; 10 R34 (d): the TX-complete cause ends a transmission. -/
theorem test_raise :
    let e := { ready.env with enabled := 0x08, txInFlight := true }
    (e.apply ready.par.reg (.raise 0x01)).irqLine = false ∧ (e.apply ready.par.reg (.raise 0x01)).txInFlight = false ∧
    (e.apply ready.par.reg (.raise 0x08)).irqLine = true ∧ (e.apply ready.par.reg (.raise 0x08)).txInFlight = true := by
  decide

/-- 42 R140: an idle turn in which a pending run does not start draws anew at the next turn. -/
theorem test_idle_turn_draws_anew (h : Config.freePreempt bothCauses.env.draws = false) :
    step bothCauses = .next bothCauses.bumpDraws := by
  have he : entryCond bothCauses = true := by decide
  change (if entryCond bothCauses = true then
    if Config.freePreempt bothCauses.env.draws = true then exec .irq bothCauses.bumpDraws else mainTurn bothCauses.bumpDraws
    else mainTurn bothCauses) = _
  rw [if_pos he, h]
  rfl

/-! ## Decoder and pump -/

/-- The first bytes of the payload written after a 21-byte header. -/
def replyBytes (o : Outcome) : List Byte := ((datas o).drop 23).dropLast

/-- Scenario A (43 R164). -/
theorem test_m07 :
    let o := exec (.m07 0x0F) (heard false 0 [0x07, 0x0F])
    replyBytes o = [0xFF, 0x45, 0x00, 0x00, 0x7E, 0x01, 0x00] ∧ (nextOf o).out = [] := by decide

/-- Scenario B (43 R165). -/
theorem test_m01a :
    let o := exec .m01a (heard false 0 [0x01])
    replyBytes o = [0x02, 0xFE, 0xFF, 0x00] ∧ (nextOf o).dev = ready.dev := by decide

/-- The example of 43 R166. -/
theorem test_m13 :
    let o := exec (.m13 0x2A) (heard false 0 [0x13, 0x2A])
    replyBytes o = [0x14, 0x00, 0x2A, 0x00] ∧ (nextOf o).localSeq = 1 ∧
    (nextOf o).dev = (deviceA ready true 0x2A).dev := by decide

/-- The example of 43 R167. -/
theorem test_m08 :
    let o := exec (.m08 0x00) ((heard true 0x2A [0x08, 0x00, 0x00]).setLocalSeq 0x07)
    replyBytes o = [0x0A, 0x07, 0x2A] ∧ (nextOf o).localSeq = 0x08 := by decide

/-- Scenario C (43 R168). -/
theorem test_m01d :
    let o := exec (.m01d 0x05 0x01) (heard true 0 [0x01, 0x05, 0x01])
    replyBytes o = [0x09, 0x00, 0x05, 0x00] ∧ (nextOf o).out = [.forward idA [0x01, 0x05, 0x01] .data] ∧
    (nextOf o).dev = (deviceA ready true 5).dev := by decide

/-- The example of 43 R169, with the wrap of `local_seq`. -/
theorem test_m02 :
    let o := exec (.m02 0x01) ((heard false 0x11 [0x02, 0x00, 0x01, 0xAA]).setLocalSeq 0xFF)
    replyBytes o = [0x09, 0xFF, 0x11, 0x00] ∧ (nextOf o).localSeq = 0 ∧
    (nextOf o).out = [.forward idA [0x02, 0x00, 0x01, 0xAA] .data] := by decide

/-- Scenario D (43 R170). -/
theorem test_m0a :
    let t := nextOf (exec (.m0a 0x09) (heard true 0 [0x0A, 0x09]))
    t.dev = (deviceA ready true 9).dev ∧ t.bus = [] ∧ t.out = [] := by decide

/-- Scenario E (43 R171). -/
theorem test_mxx :
    (nextOf (exec (.mxx 0xFF) (heard false 0 [0xFF, 1, 2, 3, 4]))).out = [.forward idA [0xFF, 1, 2, 3, 4] .unknown] := by
  decide

/-- 43 R163: nothing, unless the configuration forwards malformed frames. -/
theorem test_malformed :
    (nextOf (exec .malformed (heard false 0 []))).out = [] ∧
    (nextOf (exec .malformed { heard false 0 [] with par := { Params.default with forwardMalformed := true } })).out =
      [.forward idA [] .unknown] := by decide

/-- Scenario C through the handler: the stored flag selects the action. -/
theorem test_on_receive :
    replyBytes (exec .onReceive ((deviceA ready true 0).setRxRec (frameA [0x01, 0x05, 0x01]))) = [0x09, 0x00, 0x05, 0x00] ∧
    replyBytes (exec .onReceive ((deviceA ready false 0).setRxRec (frameA [0x01, 0x05, 0x01]))) =
      [0x02, 0xFE, 0xFF, 0x00] := by decide

/-- The example of 42 R149. -/
theorem test_on_tx_complete :
    (nextOf (exec .onTxComplete (ready.setTxRec ⟨true, false, 3, false⟩))).out = [.txReport false 3 false] := by decide

/-- The example of 42 R146: three events, one handler call. -/
theorem test_poll :
    let t := nextOf (exec .poll (((ready.setRxRec (frameA [0xFF])).setRxEvent 3)))
    t.rxEvent = 0 ∧ t.out = [.forward idA [0xFF] .unknown] := by decide

/-- 43 R173, 70 R241: a frame decoded in COLD is answered with `ReplyRefused(E_NOT_READY)`. -/
theorem test_reply_refused :
    (nextOf (exec .m01a ((heard false 0 [0x01]).setDrv .cold))).out = [.replyRefused .notReady] := by decide

/-! ## Interleaving -/

/-- An interrupt run between the two writes of `set_pan` (20 R56): its transactions stand between them on the trace. -/
theorem test_interrupt_between_writes :
    let s := bothCauses.setEnv { bothCauses.env with pending := 0x01, agenda := [.proceed, .startIrq, .proceed] }
    (nextOf (exec (.setPan 0xBEEF) s)).bus.map (·.ctx) = [.main, .irq, .irq, .main] := by decide

/-- Under the mask the run waits for the end of the frame (20 R58, R59). -/
theorem test_masked_send_is_not_interrupted :
    let s := bothCauses.setEnv { bothCauses.env with
      pending := 0x01, agenda := .proceed :: List.replicate 9 .startIrq ++ List.replicate 9 .proceed }
    ((nextOf (exec (.send 0x0041 []) s)).bus.map (·.ctx)).all (· = .main) = true := by decide

/-! ## Witnesses: for every statement with hypotheses, states and operands that meet them -/

theorem witness_DecodeOfEncode :
    Params.default.reg.wf = true ∧ Params.default.longDirWr ≠ 0 ∧ Instr.wf (.srd 63) = true ∧
    Instr.wf (.lwr 1023 0) = true ∧ Instr.wf (.mxx 0xFF) = true ∧ Instr.wf (.send 0 [0xAA]) = true := by decide

theorem witness_DecodeOfEncode_longest (p : List Byte) (h : p.length = 255) : Instr.wf (.send 0 p) = true :=
  decide_eq_true (by rw [h]; decide)

theorem witness_MessageDispatch : (0xFF : Byte) ∉ knownTypes ∧ (0x00 : Byte) ∉ knownTypes := by decide

theorem witness_ResetPulses_SilentActions_OnTxCompleteReports : AtRest State.reset ∧ AtRest ready := by decide

theorem witness_AddressPairsSet_AddressPairsGet_PromiscuousSet_PanControllerSet_ReceptionSwitched :
    InService ready := by decide

theorem witness_BusReads_BusWrites :
    AtRest State.reset ∧ (63 : BitVec 8).toNat < 64 ∧ (1023 : BusAddr).toNat < 1024 ∧ NextStep (atNextStep ready) := by decide

/-- A read of `A_INTSTAT` with causes pending and a high line, and a map in which that register is in the long space. -/
theorem witness_BusReads_intstat :
    NextStep (atNextStep bothCauses) ∧ shortLoc 0x31 = ready.par.reg.intstat ∧
    takeScript (shortLoc 0x31) (atNextStep bothCauses).env.scripts = none ∧ (atNextStep bothCauses).env.pending = 0x09 ∧
    (atNextStep bothCauses).env.irqLine = true ∧ shortLoc 0x30 ≠ ready.par.reg.intstat ∧
    Params.wf { Params.default with reg := { RegMap.default with intstat := .l 0x231 } } = true ∧
    longLoc 0x231 = .l 0x231 := by decide

/-- Every role of 20 R57, with the values that have an effect. -/
theorem witness_BusWrites_roles :
    let r := ready.par.reg
    PlainLoc r (shortLoc 0x00) ∧ PlainLoc r (longLoc 0x3FF) ∧ shortLoc 0x2A = r.softrst ∧ shortLoc 0x0D = r.rxflush ∧
    shortLoc 0x1B = r.txncon ∧ shortLoc 0x39 = r.rxctl ∧ r.vRxen ≠ r.vRxdis ∧ shortLoc 0x36 = r.rfctl ∧
    r.vRfrstClr ≠ r.vRfrstSet ∧ shortLoc 0x32 = r.intcon ∧ longLoc 0x200 = r.channel := by decide

theorem witness_BusAddressRefused :
    State.reset.mainCtl = .idle ∧ 64 ≤ (64 : BitVec 8).toNat ∧ 1024 ≤ (1024 : BusAddr).toNat := by decide

/-- A bus that sticks at the next transaction. -/
def sticking : State := ready.setEnv { ready.env with stuckAfter := some 0 }

theorem witness_StuckBusEndsTheRun :
    sticking.mainCtl = .idle ∧ sticking.env.agenda = [] ∧ sticking.env.irqLine = false ∧
    sticking.env.stuckAfter = some 0 ∧ (63 : BitVec 8).toNat < 64 ∧ (1023 : BusAddr).toNat < 1024 := by decide

theorem witness_AddressPairsReadBack :
    InService ready ∧ ready.env.scripts = [] ∧ ready.par.reg.panl ≠ ready.par.reg.panh ∧
    (∀ l ∈ [ready.par.reg.panl, ready.par.reg.panh], PlainLoc ready.par.reg l ∧ l ≠ ready.par.reg.intstat) ∧
    ready.par.reg.sadrl ≠ ready.par.reg.sadrh ∧
    (∀ l ∈ [ready.par.reg.sadrl, ready.par.reg.sadrh], PlainLoc ready.par.reg l ∧ l ≠ ready.par.reg.intstat) := by decide

theorem witness_MemoryFrame :
    AtRest ready ∧ Instr.isIrqRow (.setPan 0xBEEF) = false ∧
    (∀ l ∈ storedTo ready (.setPan 0xBEEF), PlainLoc ready.par.reg l) ∧
    exec (.setPan 0xBEEF) ready = .next (nextOf (exec (.setPan 0xBEEF) ready)) :=
  ⟨by decide, rfl, by decide, next_of (by decide)⟩

theorem witness_MemoryFrame_stores :
    AtRest (heard false 0 [0x01]) ∧ Instr.isIrqRow .m01a = false ∧
    (∀ l ∈ storedTo (heard false 0 [0x01]) .m01a, PlainLoc ready.par.reg l) ∧
    exec .m01a (heard false 0 [0x01]) = .next (nextOf (exec .m01a (heard false 0 [0x01]))) :=
  ⟨by decide, rfl, by decide, next_of (by decide)⟩

theorem witness_InterruptMemoryFrame :
    Instr.isIrqRow .rxpath = true ∧ (received imageA).env.runMoves = [] ∧
    PlainLoc ready.par.reg ready.par.reg.rxctl ∧
    exec .rxpath (received imageA) = .next (nextOf (exec .rxpath (received imageA))) :=
  ⟨rfl, by decide, by decide, next_of (by decide)⟩

theorem witness_InitializeSucceeds_InitializeTransactionCount :
    AtRest answering ∧ answering.drv ≠ .faulted ∧ answering.softReset.1 = true ∧ answering.calibrated.1 = true := by decide

/-- The same without a configured extended address. -/
def unnamed : State := answering.setCfg { answering.cfg with eadrValid := false }

theorem witness_InitializeSucceeds_address_unknown :
    AtRest unnamed ∧ unnamed.drv ≠ .faulted ∧ unnamed.softReset.1 = true ∧ unnamed.calibrated.1 = true := by decide

/-- A transceiver that never gets ready to receive. -/
def neverUp : State :=
  script (script (script (script State.reset (.s 0x2A) 0) (.l 0x20F) 0) (.l 0x20F) 0x80) (.l 0x20F) 0x20

theorem witness_InitializeTimesOut :
    AtRest neverReset ∧ neverReset.drv ≠ .faulted ∧ neverReset.softReset.1 = false ∧
    AtRest neverUp ∧ neverUp.drv ≠ .faulted ∧ neverUp.softReset.1 = true ∧
    neverUp.calibrated.1 = false := by decide

theorem witness_BoundedPoll : Quiet neverReset ∧ Loc.inRange (.s 0x2A) = true := by decide

theorem witness_ExtendedAddressRead :
    Quiet (ready.setCfg { ready.cfg with eadrValid := false }) ∧ Loc.windowInRange (.s 0x38) 8 = true ∧
    (ready.setCfg { ready.cfg with eadrValid := false }).cfg.eadrValid = false := by decide

theorem witness_SetChannelTunes_ChannelValues :
    InService ready ∧ 11 ≤ (11 : Byte).toNat ∧ (11 : Byte).toNat ≤ 26 ∧ 11 ≤ (26 : Byte).toNat ∧
    (26 : Byte).toNat ≤ 26 := by decide

theorem witness_BadChannelRefused :
    ready.mainCtl = .idle ∧ ready.drv = .ready ∧ (10 : Byte).toNat < 11 ∧ 26 < (27 : Byte).toNat := by decide

theorem witness_NotReadyRefused :
    Instr.gated (.send 0 []) = true ∧ State.reset.mainCtl = .idle ∧ State.reset.drv ≠ .ready ∧
    (ready.setDrv .faulted).mainCtl = .idle ∧ (ready.setDrv .faulted).drv = .faulted := by decide

/-- A `send` with a destination at the largest length, and one without a destination. -/
theorem witness_SendTransmits :
    InService (ready.setRxRec (frameA [])) ∧ RxRec.Fits ready.par (frameA []) ∧ (frameA []).valid = true ∧
    hdrShape 0xCC41 = some ⟨8, 8⟩ ∧ (List.replicate 106 (0 : Byte)).length ≤ 116 ∧
    hdrLen ⟨8, 8⟩ + (List.replicate 106 (0 : Byte)).length ≤ 127 ∧ (frameA []).srcLen = 8 ∧
    hdrShape 0x0041 = some ⟨0, 0⟩ ∧ hdrLen ⟨0, 0⟩ + (List.replicate 116 (0 : Byte)).length ≤ 127 := by decide

theorem witness_SendRefused :
    InService ready ∧ fcfDm 0x0441 = 1 ∧ fcfSm 0x4041 = 1 ∧ hdrShape 0xCC41 = some ⟨8, 8⟩ ∧
    127 < hdrLen ⟨8, 8⟩ + (List.replicate 107 (0 : Byte)).length ∧ 116 < (List.replicate 117 (0 : Byte)).length ∧
    hdrLen ⟨8, 8⟩ + ([] : List Byte).length ≤ 127 ∧ ready.rxRec.valid = false ∧ ready.irqMask = false := by decide

theorem witness_Send16Transmits :
    InService ready ∧ (List.replicate 116 (0 : Byte)).length ≤ 116 ∧
    116 < (List.replicate 117 (0 : Byte)).length := by decide

theorem witness_HeaderLengthLaw :
    hdrShape 0x8841 = some ⟨2, 2⟩ ∧ rxShape Params.default 23 0xCC41 = some ⟨8, 8, 21, 2⟩ ∧
    ready.mainCtl = .idle ∧ ready.drv = .ready ∧ fcfDm 0x0441 = 1 ∧ InService ready ∧
    hdrShape 0x0041 = some ⟨0, 0⟩ := by decide

theorem witness_RxpathReceives_TxpathCompletes_IrqServices :
    RunReady (received imageA) ∧ RunReady bothCauses ∧ entryCond bothCauses = true ∧
    (bothCauses.setRxEvent 255).rxEvent.toNat + 1 = 256 := by decide

/-- A run waiting at the head of the agenda. -/
def waiting : State := bothCauses.setEnv { bothCauses.env with agenda := [.startIrq, .proceed] }

theorem witness_IrqNotAdmitted :
    ¬ EntryHolds ready ∧ ¬ EntryHolds (bothCauses.setIrqMask true) ∧ ¬ EntryHolds (bothCauses.setIrqActive true) ∧
    ¬ EntryHolds (bothCauses.setIrqCtl (.running .irq 0)) ∧ EntryHolds bothCauses ∧ ready.mainCtl = .idle ∧
    ready.irqCtl = .idle ∧ ready.hostq = [] ∧ ready.env.agenda = [] ∧ startsWithStep ready .poll = true ∧
    ¬ EntryHolds (waiting.setIrqMask true) ∧ (waiting.setIrqMask true).env.agenda = .startIrq :: [.proceed] ∧
    (waiting.setIrqMask true).mainCtl = .idle ∧ (waiting.setIrqMask true).irqCtl = .idle ∧
    startsWithStep (waiting.setIrqMask true) .poll = true := by decide

/-- The drop condition and its edges (42 R143): each clause alone, and the longest frame that is kept. -/
theorem witness_RxpathReceives_drops :
    Dropped Params.default 23 0xC441 ∧ Dropped Params.default 23 0x4C41 ∧ Dropped Params.default 128 0xCC41 ∧
    Dropped Params.default 20 0xCC41 ∧ Dropped Params.default 122 0x0041 ∧ ¬ Dropped Params.default 121 0x0041 ∧
    ¬ Dropped Params.default 21 0xCC41 ∧ ¬ Dropped Params.default 127 0xCC41 := by decide

/-- An image with a destination mode of 1 (0xC441). -/
def imageDropped : List Byte := [0x05, 0x41, 0xC4, 0x07, 0x34, 0x12, 0x6C, 0xB4]

theorem witness_RxpathParsesImage_long_prefix :
    RunReady (received [0x80, 0x41, 0xCC]) ∧ FifoApart (received [0x80, 0x41, 0xCC]).par.reg ∧
    HoldsImage (received [0x80, 0x41, 0xCC]) [0x80, 0x41, 0xCC] ∧ Dropped Params.default 0x80 0xCC41 := by
  refine ⟨by decide, by decide, ⟨by decide, by decide, ?_⟩, by decide⟩
  intro i hi
  obtain rfl | rfl | rfl : i = 0 ∨ i = 1 ∨ i = 2 := by simp at hi; omega
  all_goals decide

theorem witness_RxpathParsesImage_drop :
    RunReady (received imageDropped) ∧ FifoApart (received imageDropped).par.reg ∧
    (received imageDropped).env.scripts = [] ∧ imageDropped.length ≤ (received imageDropped).env.imageLen ∧ imageDropped.length = 8 ∧
    (∀ i : Fin 8, (received imageDropped).env.peek (locPlus (.l 0x300) i.val) = imageDropped[i.val]?) ∧
    3 + (byteAt imageDropped 0).toNat ≤ imageDropped.length ∧
    Dropped Params.default (byteAt imageDropped 0).toNat (half (byteAt imageDropped 2) (byteAt imageDropped 1)) := by decide

theorem witness_RxpathParsesImage :
    RunReady (received imageA) ∧ FifoApart (received imageA).par.reg ∧ (received imageA).env.scripts = [] ∧
    imageA.length ≤ (received imageA).env.imageLen ∧ imageA.length = 26 ∧
    (∀ i : Fin 26, (received imageA).env.peek (locPlus (.l 0x300) i.val) = imageA[i.val]?) ∧
    3 + (byteAt imageA 0).toNat ≤ imageA.length ∧ parseFrame Params.default imageA = some (frameA [0x0A, 0x09]) ∧
    ¬ Dropped Params.default (byteAt imageA 0).toNat (half (byteAt imageA 2) (byteAt imageA 1)) := by decide

theorem witness_SentFrameParsesBack :
    Params.default.rxTrailerLen = 0 ∧ RxRec.Fits Params.default (frameA []) ∧ hdrShape 0xCC61 = some ⟨8, 8⟩ ∧
    hdrLen ⟨8, 8⟩ + 106 ≤ 127 ∧ (frameA []).valid = true ∧ (frameA []).srcLen = 8 := by decide

theorem witness_InterruptBeforeFirstStep :
    waiting.mainCtl = .idle ∧ waiting.env.agenda = .startIrq :: [.proceed] ∧ entryCond waiting = true ∧
    exec .irq waiting = .next (nextOf (exec .irq waiting)) := ⟨rfl, rfl, by decide, next_of (by decide)⟩

/-- Rows that start with a step of their own in that state, the ones with tests before it with those passed. -/
theorem witness_InterruptBeforeFirstStep_rows :
    ([.srd 63, .lwr 1023 0, .reset, .init, .setChannel 26, .setPan 0, .rxEnable, .send 0x0041 [],
      .send16Ack 0 [], .poll, .getRxRecord, .onReceive, .onTxComplete, .m07 0x0F, .m01a, .m13 0, .m08 0,
      .m01d 0 0, .m02 0, .m0a 0, .mxx 0xFF] : List Instr).all (startsWithStep waiting) = true := by decide

theorem witness_OfflineActions_BeaconAction_ShortReplyAction_DataActions_OnReceiveDispatches :
    AtRest (heard true 5 [0x01, 0x05, 0x01]) ∧ (heard true 5 [0x01, 0x05, 0x01]).rxRec.valid = true ∧
    RxRec.Fits Params.default (heard true 5 [0x01, 0x05, 0x01]).rxRec ∧
    (heard true 5 [0x01, 0x05, 0x01]).rxRec.srcLen = 8 ∧ AtRest State.reset ∧ State.reset.rxRec.valid = false ∧
    State.reset.rxRec.srcLen ≠ 8 := by decide

theorem witness_LookupFindsTheRecord :
    ({ frameA [] with srcLen := 2 } : RxRec).srcLen ≠ 8 ∧ (frameA []).srcLen = 8 ∧ (ready.dev.map (·.identity)).Nodup ∧
    ready.dev[0]? = some ⟨#v[0xA0, 0xA1, 0xA2, 0xA3, 0xA4, 0xA5, 0xA6, 0xA7], false, 0⟩ ∧
    (decCtx ready.par ready.dev (frameA [])).slot = some 0 ∧
    (decCtx ready.par ready.dev { frameA [] with src := idE }).slot = none := by decide

theorem witness_PollServes :
    AtRest (ready.setRxRec (frameA [])) ∧ ((ready.setRxRec (frameA [])).setRxEvent 255).rxEvent ≠ 0 ∧
    (ready.setTxEvent 1).txEvent ≠ 0 := by decide

theorem witness_RecordsReturned :
    AtRest State.reset ∧ exec .getRxRecord waiting = .next (nextOf (exec .getRxRecord waiting)) ∧
    (nextOf (exec .getRxRecord waiting)).rxRec.valid = true ∧
    exec .getTxRecord waiting = .next (nextOf (exec .getTxRecord waiting)) :=
  ⟨by decide, next_of (by decide), by decide, next_of (by decide)⟩

theorem witness_RowFrame_CountersAdvanceByOne :
    exec .rxDisable ready = .next (nextOf (exec .rxDisable ready)) := next_of (by decide)

theorem witness_InterruptWritesOnly :
    Instr.isIrqRow .irq = true ∧ exec .irq bothCauses = .next (nextOf (exec .irq bothCauses)) :=
  ⟨rfl, next_of (by decide)⟩

theorem witness_OnlyTheSourceChanges :
    exec .onReceive (heard false 0 [0x0A, 0x09]) = .next (nextOf (exec .onReceive (heard false 0 [0x0A, 0x09]))) ∧
    (nextOf (exec .onReceive (heard false 0 [0x0A, 0x09]))).dev[0]? ≠ (heard false 0 [0x0A, 0x09]).dev[0]? :=
  ⟨next_of (by decide), by decide⟩

theorem witness_SendIsNeverTorn :
    exec (.send 0x0041 []) ready = .next (nextOf (exec (.send 0x0041 []) ready)) ∧
    (nextOf (exec (.send 0x0041 []) ready)).result.code = .ok ∧
    exec (.send16Ack 0x1234 []) ready = .next (nextOf (exec (.send16Ack 0x1234 []) ready)) ∧
    (nextOf (exec (.send16Ack 0x1234 []) ready)).result.code = .ok :=
  ⟨next_of (by decide), by decide, next_of (by decide), by decide⟩

/-- A row of the decoder whose reply is sent: the source is known and the driver in service. -/
theorem witness_SendIsNeverTorn_reply :
    let s := heard true 5 [0x01, 0x05, 0x01]
    let t := nextOf (exec (.m01d 0x05 0x01) s)
    Instr.mayReply (.m01d 0x05 0x01) = true ∧ exec (.m01d 0x05 0x01) s = .next t ∧ NoReplyRefused s t ∧
    exec .onReceive s = .next (nextOf (exec .onReceive s)) ∧ (nextOf (exec .onReceive s)).txSeq ≠ s.txSeq ∧
    NoReplyRefused s (nextOf (exec .onReceive s)) := by
  have quiet : ∀ s t : State, s.out = [] → (∃ a b c, t.out = [.forward a b c]) → NoReplyRefused s t := by
    rintro s t hs ⟨a, b, c, ht⟩ new h d hd
    rw [ht, hs, List.nil_append] at h
    rw [← h] at hd
    simp at hd
  exact ⟨rfl, next_of (by decide), quiet _ _ rfl ⟨_, _, _, rfl⟩, next_of (by decide), by decide,
    quiet _ _ rfl ⟨_, _, _, rfl⟩⟩

/-- A table that has the source at index 0, with the decoder's slot there, and one without. -/
theorem witness_BeaconAction_table :
    (heard true 5 [0x13, 0x2A]).dec.slot = some 0 ∧ (heard true 5 [0x13, 0x2A]).dev.length = 2 ∧
    State.reset.dec.slot = none ∧
    exec (.m13 0x2A) (heard true 5 [0x13, 0x2A]) = .next (nextOf (exec (.m13 0x2A) (heard true 5 [0x13, 0x2A]))) :=
  ⟨by decide, by decide, rfl, next_of (by decide)⟩

theorem witness_WellFormedMapIsNeverRefused :
    ready.par.wf = true ∧ ready.result.code ≠ .badBusAddr ∧
    exec .getPan (nextOf (exec (.setPan 0) ready)) = .next (nextOf (exec .getPan (nextOf (exec (.setPan 0) ready)))) :=
  ⟨by decide, by decide, next_of (by decide)⟩

theorem witness_WellFormedMapIsNeverRefused_runs :
    (received imageA).par.wf = true ∧
    exec .rxpath (received imageA) = .next (nextOf (exec .rxpath (received imageA))) ∧
    exec .txpath ready = .next (nextOf (exec .txpath ready)) ∧
    exec .irq bothCauses = .next (nextOf (exec .irq bothCauses)) :=
  ⟨by decide, next_of (by decide), next_of (by decide), next_of (by decide)⟩

theorem witness_OnlyAStuckBusFaults : NeverSticks waiting ∧ Instr.isIrqRow .poll = false ∧ waiting.mainCtl = .idle := by
  decide

theorem witness_ValidBitsStay :
    step waiting = .next (nextOf (step waiting)) ∧ (nextOf (step waiting)).rxRec.valid = true ∧
    (nextOf (step waiting)).txRec.valid = true ∧ step (nextOf (step waiting)) = .next (nextOf (step (nextOf (step waiting)))) :=
  ⟨next_of (by decide), by decide, by decide, next_of (by decide)⟩

theorem witness_StepKeepsInv : Inv waiting ∧ step waiting = .next (nextOf (step waiting)) :=
  ⟨by decide, next_of (by decide)⟩

theorem witness_InvAtPowerOn : Params.default.wf = true := by decide

theorem witness_PowerOnValues :
    Params.default.cfgEadr.isSome = true ∧ (State.powerOn Params.default).dev[1]?.isSome = true := by decide

/-- A command in front of the queue. -/
def commanded (bytes : List Byte) : State := State.reset.setHostq [bytes]

theorem witness_StepRunsTheDecoded :
    Quiet (commanded [0x0D]) ∧ (commanded [0x0D]).mainCtl = .idle ∧ (commanded [0x0D]).irqCtl = .idle ∧
    decode Params.default .host [0x0D] = .ok .poll ∧
    Quiet (State.reset.setMainCtl (.running .poll 0)) ∧ waiting.irqCtl = .idle ∧ entryCond waiting = true ∧
    decodeTableWord 8 0x0D = some .poll ∧ decodeTableWord 16 0x6200 = some (.srd 0x31) ∧
    decodeTableWord 8 0x13 = some (.m13 0) := by decide

theorem witness_BadCommandRefused :
    Quiet (commanded [0x10]) ∧ (commanded [0x10]).mainCtl = .idle ∧ (commanded [0x10]).irqCtl = .idle ∧
    decodeHost [0x10] = .error .unknownCommand := by decide

end Sys2Proof.Tests
end

/-! # Only a stuck bus ends a run (00 R9, 70 R240)

`NeverFaults x` says that `x`, started where no transaction will be answered `stuck`, ends with a value or a result code,
and again no transaction will be answered `stuck`. The idea is in `NeverFaults.drain` and
`NeverFaults.runBoundary`: what comes between two elementary steps (moves of the environment, interrupt runs) makes the
bus stick only by a `stick` move of the agenda or of the run moves, and `NeverSticks` excludes those. Every operation is
built from elementary steps, so the rest follows the operations' own structure. -/

namespace Sys2Proof.Machine

/-! ## What keeps the bus from sticking -/

theorem NeverSticks.afterBusRead {s : State} (h : NeverSticks s) (c : Ctx) (l : Loc) :
    NeverSticks (s.afterBusRead c l) := by
  obtain ⟨hstuck, hagenda, hmoves⟩ := h
  exact ⟨by rw [afterBusRead_stuckAfter, hstuck]; rfl, by rwa [afterBusRead_agenda], by rwa [afterBusRead_runMoves]⟩

theorem NeverSticks.afterBusWrite {s : State} (h : NeverSticks s) (c : Ctx) (l : Loc) (v : Byte) :
    NeverSticks (s.afterBusWrite c l v) := by
  obtain ⟨hstuck, hagenda, hmoves⟩ := h
  exact ⟨by rw [afterBusWrite_stuckAfter, hstuck]; rfl, by rwa [afterBusWrite_agenda], by rwa [afterBusWrite_runMoves]⟩

theorem NeverSticks.setEnv_of_writeFrame {s : State} {e : Env} (h : NeverSticks s) (hf : Env.WriteFrame s.env e) :
    NeverSticks (s.setEnv e) := by
  rw [hf]
  exact h

theorem NeverSticks.setAgenda {s : State} (h : NeverSticks s) {as : List Act}
    (has : (as.all fun a => !a.isStick) = true) : NeverSticks (s.setAgenda as) := ⟨h.1, has, h.2.2⟩

theorem Env.pokeAll_frame (e : Env) (l : Loc) (vs : List Byte) : Env.WriteFrame e (e.pokeAll l vs) := by
  induction vs generalizing e l with
  | nil => rfl
  | cons v vs ih => exact (Env.poke_frame e l v).trans (ih _ _)

/-- Of the moves of the environment only `stick` schedules a `stuck` answer (20 R68). -/
theorem NeverSticks.envMove {s : State} (h : NeverSticks s) {m : EnvMove} (hm : (!m.isStick) = true) :
    NeverSticks (s.envMove m) := by
  cases m with
  | rxFrame image =>
    have stored := h.setEnv_of_writeFrame (Env.pokeAll_frame s.env s.par.reg.rxfifo (image.take 130))
    show NeverSticks (s.setEnv (s.env.rxFrame s.par.reg image))
    unfold Env.rxFrame
    split
    · exact stored
    · exact h
  | txDone status =>
    have stored := h.setEnv_of_writeFrame (Env.poke_frame s.env s.par.reg.txstat status)
    exact stored
  | reads l answers => exact h
  | raise causes => exact h
  | line level => exact h
  | change l v => exact h.setEnv_of_writeFrame (Env.poke_frame s.env l v)
  | stick after => exact absurd hm Bool.false_ne_true

theorem NeverSticks.foldl_envMove {s : State} (h : NeverSticks s) {ms : List EnvMove}
    (hms : (ms.all fun m => !m.isStick) = true) : NeverSticks (ms.foldl State.envMove s) := by
  induction ms generalizing s with
  | nil => exact h
  | cons m ms ih =>
    obtain ⟨hm, hms⟩ := Bool.and_eq_true_iff.1 hms
    exact ih (h.envMove hm) hms

/-! ## Operations that never fault -/

/-- An early end with a result code, not with a fault, that leaves a bus that will not stick. -/
def EndsWithCode (e : Raise) (t : State) : Prop := (∃ c, e = .code c) ∧ NeverSticks t

/-- Where no transaction will be answered `stuck`, the operation ends without a fault, and that stays so. -/
def NeverFaults {α : Type} (x : Op α) : Prop := Triple NeverSticks x (fun _ => NeverSticks) EndsWithCode

namespace NeverFaults

theorem bind {α β : Type} {x : Op α} {k : α → Op β} (hx : NeverFaults x) (hk : ∀ a, NeverFaults (k a)) :
    NeverFaults (x >>= k) := Triple.bind hx hk

theorem pure {α : Type} (a : α) : NeverFaults (pure a : Op α) := fun _ h => h
theorem view {α : Type} (f : State → α) : NeverFaults (Op.view f) := fun _ h => h
theorem raise {α : Type} (c : Code) : NeverFaults (Op.raise c : Op α) := fun _ h => ⟨⟨c, rfl⟩, h⟩
theorem update {f : State → State} (h : ∀ s, NeverSticks s → NeverSticks (f s)) : NeverFaults (Op.update f) := h

theorem require (b : Bool) (c : Code) : NeverFaults (Op.require b c) := by
  intro s hs
  cases b
  · exact ⟨⟨c, rfl⟩, hs⟩
  · exact hs

theorem ite {α : Type} (b : Prop) [Decidable b] {x y : Op α} (hx : NeverFaults x) (hy : NeverFaults y) :
    NeverFaults (if b then x else y) := by split <;> assumption

/-- An operation that never faults, put to an end: a value or a code. -/
theorem outcome {α : Type} {x : Op α} (hx : NeverFaults x) {s : State} (hs : NeverSticks s) :
    (∃ a t, x s = .ok a t ∧ NeverSticks t) ∨ ∃ c t, x s = .error (.code c) t ∧ NeverSticks t := by
  have h := hx s hs
  cases hxs : x s with
  | ok a t => rw [hxs] at h; exact .inl ⟨a, t, rfl, h⟩
  | error e t =>
    rw [hxs] at h
    obtain ⟨⟨c, rfl⟩, ht⟩ := h
    exact .inr ⟨c, t, rfl, ht⟩

theorem attempt {x : Op Unit} (hx : NeverFaults x) : NeverFaults (Op.attempt x) := by
  intro s hs
  unfold Op.attempt
  obtain ⟨a, t, hxs, ht⟩ | ⟨c, t, hxs, ht⟩ := hx.outcome hs
  · rw [hxs]; exact ht
  · rw [hxs]; exact ht

/-- A transaction is refused for its address or completes; stuck it is not (40 R105, R106). -/
theorem busRead (c : Ctx) (l : Loc) : NeverFaults (busRead c l) := by
  intro s hs
  by_cases hl : l.inRange = false
  · rw [show Machine.busRead c l s = .error (.code .badBusAddr) s from if_pos hl]
    exact ⟨⟨_, rfl⟩, hs⟩
  · rw [busRead_run (by simpa using hl) hs.1]
    exact hs.afterBusRead c l

theorem busWrite (c : Ctx) (l : Loc) (v : Byte) : NeverFaults (busWrite c l v) := by
  intro s hs
  by_cases hl : l.inRange = false
  · rw [show Machine.busWrite c l v s = .error (.code .badBusAddr) s from if_pos hl]
    exact ⟨⟨_, rfl⟩, hs⟩
  · rw [busWrite_run (by simpa using hl) hs.1]
    exact hs.afterBusWrite c l v

/-! ## The interrupt context -/

/-- The moves before a step of the interrupt context are among the run moves, which hold no `stick`. -/
theorem runBoundary : NeverFaults runBoundary := by
  rintro s ⟨hstuck, hagenda, hmoves⟩
  unfold Machine.runBoundary
  cases hr : s.env.runMoves with
  | nil => exact ⟨hstuck, hagenda, hmoves⟩
  | cons ms rest =>
    rw [hr] at hmoves
    obtain ⟨hms, hrest⟩ := Bool.and_eq_true_iff.1 hmoves
    have hs' : NeverSticks (s.setEnv { s.env with runMoves := rest }) := ⟨hstuck, hagenda, hrest⟩
    exact hs'.foldl_envMove hms

theorem irqElem {α : Type} {x : Op α} (hx : NeverFaults x) : NeverFaults (irqElem x) :=
  bind runBoundary fun _ => bind (update fun _ h => h) fun _ => hx

theorem irqRead (l : Loc) : NeverFaults (irqRead l) := irqElem (busRead _ l)
theorem irqWrite (l : Loc) (v : Byte) : NeverFaults (irqWrite l v) := irqElem (busWrite _ l v)

theorem readFifo (b : Loc) (off n : Nat) : NeverFaults (readFifo b off n) := by
  induction n generalizing off with
  | zero => exact pure _
  | succ n ih => exact bind (irqRead _) fun _ => bind (ih _) fun _ => pure _

theorem commitFrame (p : Params) (L : Byte) (fcf : Half) (h : RxShape) : NeverFaults (commitFrame p L fcf h) :=
  bind (irqRead _) fun _ => bind (irqRead _) fun _ => bind (irqRead _) fun _ => bind (readFifo _ _ _) fun _ =>
    bind (readFifo _ _ _) fun _ => bind (readFifo _ _ _) fun _ => bind (irqRead _) fun _ => bind (irqRead _) fun _ =>
    bind (irqElem (update fun _ h => h)) fun _ => bind (irqWrite _ _) fun _ => irqElem (update fun _ h => h)

theorem opRxpath : NeverFaults opRxpath := by
  refine bind (view _) fun p => bind (irqWrite _ _) fun _ => bind (irqRead _) fun L => bind (irqRead _) fun lo =>
    bind (irqRead _) fun hi => ?_
  split
  · exact irqWrite _ _
  · exact commitFrame _ _ _ _

theorem opTxpath : NeverFaults opTxpath :=
  bind (view _) fun _ => bind (irqRead _) fun _ => bind (irqElem (update fun _ h => h)) fun _ =>
    irqElem (update fun _ h => h)

theorem opIrq : NeverFaults opIrq :=
  bind (view _) fun _ => bind (irqRead _) fun _ => bind (ite _ opRxpath (pure _)) fun _ => ite _ opTxpath (pure _)

theorem irqRun : NeverFaults irqRun := by
  intro s hs
  unfold Machine.irqRun
  have henter : NeverSticks (enterIrq s) := hs
  obtain ⟨a, t, hx, ht⟩ | ⟨c, t, hx, ht⟩ := opIrq.outcome henter
  · rw [hx]; exact ht
  · rw [hx]; exact ht

/-! ## The main context -/

/-- Between two steps of the main context: by induction on the acts of the agenda, none of which is a `stick`. -/
theorem drain {as : List Act} (has : (as.all fun a => !a.isStick) = true) : NeverFaults (drain as) := by
  induction as with
  | nil =>
    intro s hs
    have hdrawn : NeverSticks (s.setAgenda []).bumpDraws := hs.setAgenda has
    unfold Machine.drain
    by_cases hc : entryCond s = true
    · rw [if_pos hc]
      by_cases hp : Config.freePreempt s.env.draws = true
      · rw [if_pos hp]; exact irqRun _ hdrawn
      · rw [if_neg hp]; exact hdrawn
    · rw [if_neg hc]; exact hs.setAgenda has
  | cons a as ih =>
    obtain ⟨ha, hrest⟩ := Bool.and_eq_true_iff.1 has
    intro s hs
    cases a with
    | proceed => exact hs.setAgenda hrest
    | env m => exact ih hrest _ (hs.envMove ha)
    | startIrq =>
      unfold Machine.drain
      by_cases hc : entryCond s = true
      · rw [if_pos hc]
        obtain ⟨a, t, hx, ht⟩ | ⟨c, t, hx, ht⟩ := irqRun.outcome hs
        · rw [hx]; exact ih hrest t ht
        · rw [hx]; exact ⟨⟨c, rfl⟩, ht⟩
      · rw [if_neg hc]; exact ih hrest s hs

theorem boundary : NeverFaults boundary := fun s hs => drain hs.2.1 s hs

theorem elem {α : Type} {x : Op α} (hx : NeverFaults x) : NeverFaults (elem x) :=
  bind boundary fun _ => bind (update fun _ h => h) fun _ => hx

theorem mainRead (l : Loc) : NeverFaults (mainRead l) := elem (busRead _ l)
theorem mainWrite (l : Loc) (v : Byte) : NeverFaults (mainWrite l v) := elem (busWrite _ l v)

theorem mainUpdate {f : State → State} (h : ∀ s, NeverSticks s → NeverSticks (f s)) : NeverFaults (mainUpdate f) :=
  elem (update h)

theorem mainWait (ms : Nat) : NeverFaults (mainWait ms) := mainUpdate fun _ h => h
theorem mainEmit (e : OutEvent) : NeverFaults (mainEmit e) := mainUpdate fun _ h => h
theorem maskIrq : NeverFaults maskIrq := update fun _ h => h
theorem unmaskIrq : NeverFaults unmaskIrq := update fun _ h => h
theorem requireReady : NeverFaults requireReady := bind (view _) fun _ => require _ _

theorem wrPair (lo hi : Loc) (v : Half) : NeverFaults (wrPair lo hi v) := bind (mainWrite _ _) fun _ => mainWrite _ _

theorem rdPair (lo hi : Loc) : NeverFaults (rdPair lo hi) :=
  bind (mainRead _) fun _ => bind (mainRead _) fun _ => pure _

theorem wrFifo (b : Loc) (off : Nat) (vs : List Byte) : NeverFaults (wrFifo b off vs) := by
  induction vs generalizing off with
  | nil => exact pure _
  | cons v vs ih => exact bind (mainWrite _ _) fun _ => ih _

theorem pollUntil (l : Loc) (m v : Byte) (k : Nat) : NeverFaults (pollUntil l m v k) := by
  induction k with
  | zero => exact pure _
  | succ k ih => exact bind (mainRead _) fun _ => ite _ (pure _) ih

/-! ## The radio driver (41 R111 to R127) -/

theorem opReset : NeverFaults opReset :=
  bind (view _) fun _ => bind (mainUpdate fun _ h => h) fun _ => bind (mainWait _) fun _ =>
    bind (mainUpdate fun _ h => h) fun _ => bind (mainWait _) fun _ => bind (mainUpdate fun _ h => h) fun _ => pure _

theorem hwFault {α : Type} (c : Code) : NeverFaults (hwFault c : Op α) :=
  bind (mainUpdate fun _ h => h) fun _ => raise c

theorem writeEadr (b : Loc) (off : Nat) (vs : List Byte) : NeverFaults (writeEadr b off vs) := by
  induction vs generalizing off with
  | nil => exact pure _
  | cons v vs ih => exact bind (mainWrite _ _) fun _ => ih _

theorem readEadr (b : Loc) (is : List (Fin 8)) : NeverFaults (readEadr b is) := by
  induction is with
  | nil => exact pure _
  | cons i is ih => exact bind (mainRead _) fun _ => bind (mainUpdate fun _ h => h) fun _ => ih

theorem loadExtendedAddress (b : Loc) : NeverFaults (loadExtendedAddress b) :=
  bind (view _) fun _ => ite _ (writeEadr _ _ _) (bind (readEadr _ _) fun _ => mainUpdate fun _ h => h)

theorem writeCal (ws : List (Loc × Byte)) : NeverFaults (writeCal ws) := by
  induction ws with
  | nil => exact pure _
  | cons w ws ih => exact bind (mainWrite _ _) fun _ => ih

theorem tuneChannel (r : RegMap) (n : Byte) : NeverFaults (tuneChannel r n) :=
  bind (mainWrite _ _) fun _ => bind (mainWrite _ _) fun _ => bind (mainWrite _ _) fun _ => mainUpdate fun _ h => h

theorem initConfigure (p : Params) : NeverFaults (initConfigure p) :=
  bind (mainWrite _ _) fun _ => bind (wrPair _ _ _) fun _ => bind (mainUpdate fun _ h => h) fun _ =>
    bind (wrPair _ _ _) fun _ => bind (mainUpdate fun _ h => h) fun _ => bind (loadExtendedAddress _) fun _ => writeCal _

theorem initComplete (p : Params) : NeverFaults (initComplete p) :=
  bind (mainWrite _ _) fun _ => bind (tuneChannel _ _) fun _ => mainUpdate fun _ h => h

theorem opInit : NeverFaults opInit :=
  bind (view _) fun _ => bind (require _ _) fun _ => bind (view _) fun _ => bind (mainUpdate fun _ h => h) fun _ =>
    bind (mainWrite _ _) fun _ => bind (pollUntil _ _ _ _) fun _ =>
    ite _ (bind (initConfigure _) fun _ => bind (pollUntil _ _ _ _) fun _ =>
      ite _ (bind (initComplete _) fun _ => pure _) (hwFault _)) (hwFault _)

theorem unslot (r : RegMap) : NeverFaults (unslot r) :=
  bind (mainRead _) fun _ => bind (mainWrite _ _) fun _ => mainWrite _ _

theorem writeHeader (b : Loc) (hdr len : Nat) (fcf : Half) : NeverFaults (writeHeader b hdr len fcf) :=
  bind (wrFifo _ _ _) fun _ => bind (view _) fun _ => bind (wrFifo _ _ _) fun _ =>
    bind (mainUpdate fun _ h => h) fun _ => bind (view _) fun _ => wrFifo _ _ _

theorem writeFrame (p : Params) (h : HdrShape) (fcf : Half) (payload : List Byte) :
    NeverFaults (writeFrame p h fcf payload) :=
  bind (writeHeader _ _ _ _) fun _ => bind (view _) fun _ => bind (wrFifo _ _ _) fun _ => bind (view _) fun _ =>
    bind (wrFifo _ _ _) fun _ => bind (wrFifo _ _ _) fun _ => bind (mainWrite _ _) fun _ => elem unmaskIrq

theorem sendMasked (p : Params) (h : HdrShape) (fcf : Half) (payload : List Byte) :
    NeverFaults (sendMasked p h fcf payload) :=
  bind (elem maskIrq) fun _ => bind (view _) fun _ =>
    ite _ (bind (elem unmaskIrq) fun _ => raise _) (writeFrame _ _ _ _)

theorem opSend (fcf : Half) (payload : List Byte) : NeverFaults (opSend fcf payload) := by
  refine bind requireReady fun _ => bind (view _) fun _ => ?_
  cases hdrShape fcf with
  | none => exact raise _
  | some h => exact bind (require _ _) fun _ => sendMasked _ _ _ _

theorem opSend16Ack (dest : Half) (payload : List Byte) : NeverFaults (opSend16Ack dest payload) :=
  bind requireReady fun _ => bind (require _ _) fun _ => bind (view _) fun _ => bind (elem maskIrq) fun _ =>
    bind (writeHeader _ _ _ _) fun _ => bind (wrFifo _ _ _) fun _ => bind (view _) fun _ => bind (wrFifo _ _ _) fun _ =>
    bind (wrFifo _ _ _) fun _ => bind (mainWrite _ _) fun _ => elem unmaskIrq

/-! ## The protocol decoder and the event pump (43 R161 to R176, 42 R146 to R149) -/

theorem nextLs : NeverFaults nextLs := elem (bind (view _) fun _ => bind (update fun _ h => h) fun _ => pure _)

theorem opReply (fcf : Half) (body : List Byte) : NeverFaults (opReply fcf body) :=
  bind (opSend _ _).attempt fun _ => ite _ (pure _) (mainEmit _)

theorem mutateDev (f : DeviceRecord → DeviceRecord) : NeverFaults (mutateDev f) := mainUpdate fun _ h => h
theorem forwardFrame (tag : Tag) : NeverFaults (forwardFrame tag) := bind (view _) fun _ => mainEmit _

theorem opM07 (p1 : Byte) : NeverFaults (opM07 p1) := bind (mutateDev _) fun _ => bind (view _) fun _ => opReply _ _
theorem opM01A : NeverFaults opM01A := bind (mutateDev _) fun _ => opReply _ _
theorem opM13 (p1 : Byte) : NeverFaults (opM13 p1) := bind (mutateDev _) fun _ => bind nextLs fun _ => opReply _ _

theorem opM08 (p2 : Byte) : NeverFaults (opM08 p2) :=
  bind (mutateDev _) fun _ => bind nextLs fun _ => bind (view _) fun _ => opReply _ _

theorem opM01D (p1 p2 : Byte) : NeverFaults (opM01D p1 p2) :=
  bind (mutateDev _) fun _ => bind nextLs fun _ => bind (opReply _ _) fun _ => forwardFrame _

theorem opM02 (p2 : Byte) : NeverFaults (opM02 p2) :=
  bind (mutateDev _) fun _ => bind nextLs fun _ => bind (view _) fun _ => bind (opReply _ _) fun _ => forwardFrame _

theorem opM0A (p1 : Byte) : NeverFaults (opM0A p1) := mutateDev _
theorem opMXX : NeverFaults opMXX := forwardFrame _
theorem opMalformed : NeverFaults opMalformed := bind (view _) fun _ => ite _ (forwardFrame _) (pure _)

theorem runAction (i : Instr) : NeverFaults (runAction i) := by
  cases i with
  | m07 p1 => exact opM07 _
  | m01a => exact opM01A
  | m13 p1 => exact opM13 _
  | m08 p2 => exact opM08 _
  | m01d p1 p2 => exact opM01D _ _
  | m02 p2 => exact opM02 _
  | m0a p1 => exact opM0A _
  | mxx t => exact opMXX
  | malformed => exact opMalformed
  | _ => exact pure _

theorem opOnReceive : NeverFaults opOnReceive :=
  bind (mainUpdate fun _ h => h) fun _ => bind (view _) fun _ => runAction _

theorem opOnTxComplete : NeverFaults opOnTxComplete := bind (elem (view _)) fun _ => mainEmit _

theorem testClearRx : NeverFaults testClearRx :=
  elem (bind (view _) fun _ => bind (update fun _ h => h) fun _ => pure _)

theorem testClearTx : NeverFaults testClearTx :=
  elem (bind (view _) fun _ => bind (update fun _ h => h) fun _ => pure _)

theorem opPoll : NeverFaults opPoll :=
  bind testClearRx fun _ => bind (ite _ opOnReceive (pure _)) fun _ => bind testClearTx fun _ =>
    ite _ opOnTxComplete (pure _)

/-- An operation without a value of its own, as the body of a row. -/
theorem thenNone {x : Op Unit} (hx : NeverFaults x) : NeverFaults (do x; Pure.pure Value.none) :=
  bind hx fun _ => pure _

/-! ## The rows -/

/-- Every row of the main context runs an operation that never faults. -/
theorem exists_exec_eq_runMain (i : Instr) (hi : i.isIrqRow = false) :
    ∃ x : Op Value, (∀ s, exec i s = runMain i x s) ∧ NeverFaults x := by
  cases i with
  | irq => cases hi
  | rxpath => cases hi
  | txpath => cases hi
  | srd a => exact ⟨_, fun _ => rfl, bind (require _ _) fun _ => bind (mainRead _) fun _ => pure _⟩
  | swr a v => exact ⟨_, fun _ => rfl, bind (require _ _) fun _ => bind (mainWrite _ _) fun _ => pure _⟩
  | lrd a => exact ⟨_, fun _ => rfl, bind (require _ _) fun _ => bind (mainRead _) fun _ => pure _⟩
  | lwr a v => exact ⟨_, fun _ => rfl, bind (require _ _) fun _ => bind (mainWrite _ _) fun _ => pure _⟩
  | reset => exact ⟨_, fun _ => rfl, opReset⟩
  | init => exact ⟨_, fun _ => rfl, opInit⟩
  | setChannel n =>
    exact ⟨_, fun _ => rfl, bind requireReady fun _ => bind (require _ _) fun _ => bind (view _) fun _ =>
      thenNone (tuneChannel _ _)⟩
  | setPan v =>
    exact ⟨_, fun _ => rfl, bind requireReady fun _ => bind (view _) fun _ => bind (wrPair _ _ _) fun _ =>
      thenNone (mainUpdate fun _ h => h)⟩
  | getPan =>
    exact ⟨_, fun _ => rfl, bind requireReady fun _ => bind (view _) fun _ => bind (rdPair _ _) fun _ => pure _⟩
  | setShortAddress a =>
    exact ⟨_, fun _ => rfl, bind requireReady fun _ => bind (view _) fun _ => bind (wrPair _ _ _) fun _ =>
      thenNone (mainUpdate fun _ h => h)⟩
  | getShortAddress =>
    exact ⟨_, fun _ => rfl, bind requireReady fun _ => bind (view _) fun _ => bind (rdPair _ _) fun _ => pure _⟩
  | setPromiscuous b =>
    exact ⟨_, fun _ => rfl, bind requireReady fun _ => bind (view _) fun _ => bind (mainRead _) fun _ =>
      bind (mainWrite _ _) fun _ => thenNone (mainUpdate fun _ h => h)⟩
  | setPanController b =>
    exact ⟨_, fun _ => rfl, bind requireReady fun _ => bind (view _) fun _ => bind (mainRead _) fun _ =>
      bind (mainWrite _ _) fun _ => bind (ite _ (unslot _) (pure _)) fun _ => thenNone (mainUpdate fun _ h => h)⟩
  | rxDisable =>
    exact ⟨_, fun _ => rfl, bind requireReady fun _ => bind (view _) fun _ => thenNone (mainWrite _ _)⟩
  | rxEnable =>
    exact ⟨_, fun _ => rfl, bind requireReady fun _ => bind (view _) fun _ => thenNone (mainWrite _ _)⟩
  | send fcf payload => exact ⟨_, fun _ => rfl, thenNone (opSend _ _)⟩
  | send16Ack dest payload => exact ⟨_, fun _ => rfl, thenNone (opSend16Ack _ _)⟩
  | poll => exact ⟨_, fun _ => rfl, thenNone opPoll⟩
  | getRxRecord => exact ⟨_, fun _ => rfl, bind (elem (view _)) fun _ => pure _⟩
  | getTxRecord => exact ⟨_, fun _ => rfl, bind (elem (view _)) fun _ => pure _⟩
  | onReceive => exact ⟨_, fun _ => rfl, thenNone opOnReceive⟩
  | onTxComplete => exact ⟨_, fun _ => rfl, thenNone opOnTxComplete⟩
  | m07 p1 => exact ⟨_, fun _ => rfl, thenNone (opM07 _)⟩
  | m01a => exact ⟨_, fun _ => rfl, thenNone opM01A⟩
  | m13 p1 => exact ⟨_, fun _ => rfl, thenNone (opM13 _)⟩
  | m08 p2 => exact ⟨_, fun _ => rfl, thenNone (opM08 _)⟩
  | m01d p1 p2 => exact ⟨_, fun _ => rfl, thenNone (opM01D _ _)⟩
  | m02 p2 => exact ⟨_, fun _ => rfl, thenNone (opM02 _)⟩
  | m0a p1 => exact ⟨_, fun _ => rfl, thenNone (opM0A _)⟩
  | mxx t => exact ⟨_, fun _ => rfl, thenNone opMXX⟩
  | malformed => exact ⟨_, fun _ => rfl, thenNone opMalformed⟩

end NeverFaults

/-- Started from IDLE, an operation that never faults ends in a next state; from elsewhere it is refused. -/
theorem runMain_ends {i : Instr} {x : Op Value} (hx : NeverFaults x) {s : State} (hs : NeverSticks s) :
    (∀ f, runMain i x s ≠ .fault f) ∧ (s.mainCtl = .idle → ∃ t, runMain i x s = .next t) := by
  have hrun : NeverSticks (s.setMainCtl (.running i 0)) := hs
  unfold runMain
  cases s.mainCtl with
  | running op k => exact ⟨nofun, nofun⟩
  | idle =>
    obtain ⟨v, t, he, -⟩ | ⟨c, t, he, -⟩ := hx.outcome hrun <;> simp only [he]
    · exact ⟨nofun, fun _ => ⟨_, rfl⟩⟩
    · exact ⟨nofun, fun _ => ⟨_, rfl⟩⟩

theorem runIrqPath_ne_fault {i : Instr} {x : Op Unit} (hx : NeverFaults x) {s : State} (hs : NeverSticks s)
    (f : Fault) : runIrqPath i x s ≠ .fault f := by
  have hrun : NeverSticks (s.setIrqCtl (.running i 0)) := hs
  unfold runIrqPath
  cases s.irqCtl with
  | running op k => nofun
  | idle => obtain ⟨v, t, he, -⟩ | ⟨c, t, he, -⟩ := hx.outcome hrun <;> simp only [he] <;> nofun

theorem execIrq_ne_fault {s : State} (hs : NeverSticks s) (f : Fault) : execIrq s ≠ .fault f := by
  unfold execIrq
  split
  · obtain ⟨v, t, he, -⟩ | ⟨c, t, he, -⟩ := NeverFaults.irqRun.outcome hs <;> simp only [he] <;> nofun
  · nofun

theorem exec_irqRow_ne_fault {i : Instr} (hi : i.isIrqRow = true) {s : State} (hs : NeverSticks s) (f : Fault) :
    exec i s ≠ .fault f := by
  cases i with
  | irq => exact execIrq_ne_fault hs f
  | rxpath => exact runIrqPath_ne_fault NeverFaults.opRxpath hs f
  | txpath => exact runIrqPath_ne_fault NeverFaults.opTxpath hs f
  | _ => cases hi

/-- Settles O54: a row of the main context runs an operation that never faults, and neither does an interrupt row. -/
theorem onlyAStuckBusFaults : Obligations.OnlyAStuckBusFaults := by
  intro i s hs
  cases hi : i.isIrqRow with
  | true => exact ⟨exec_irqRow_ne_fault hi hs, nofun⟩
  | false =>
    obtain ⟨x, he, hx⟩ := NeverFaults.exists_exec_eq_runMain i hi
    rw [he s]
    exact ⟨(runMain_ends hx hs).1, fun _ => (runMain_ends hx hs).2⟩

end Sys2Proof.Machine

/-! # What a row may change, and the invariant of the machine (10 R27 to R31, R36, R37)

Two relations between the state before and the state after say once what can happen. `Grows` is what the interrupt context
and the environment do to records, event counters and memory: no valid bit falls, and what held of them holds. `Within w`
adds the frame of the main context: only the fields that the allowance `w` names change, a sequence counter advances at
most as far as `w` says, and (in a well-formed configuration) no mask is left set. Both compose, so an operation's
allowance is the sum of its parts', computed by `Touches.bind`; `exec_within` gives every row its allowance, and the
obligations are read off it. What it does not give is proved apart: that a send ends unmasked, and that READY comes only
after the extended address. -/

namespace Sys2Proof.Machine

/-! ## Rules for triples -/

/-- What an operation leaves when it ends with a result code. -/
abbrev OnCode (P : State → Prop) (e : Raise) (t : State) : Prop := ∀ c, e = .code c → P t

theorem Triple.weaken {α : Type} {P P' : State → Prop} {x : Op α} {Q Q' : α → State → Prop}
    {E E' : Raise → State → Prop} (h : Triple P x Q E) (hP : ∀ s, P' s → P s)
    (hQ : ∀ a t, Q a t → Q' a t) (hE : ∀ e t, E e t → E' e t) : Triple P' x Q' E' := by
  intro s hs
  have hx := h s (hP s hs)
  cases hxs : x s with
  | ok a t => rw [hxs] at hx; exact hQ a t hx
  | error e t => rw [hxs] at hx; exact hE e t hx

theorem Triple.pre {α : Type} {P P' : State → Prop} {x : Op α} {Q : α → State → Prop} {E : Raise → State → Prop}
    (h : Triple P x Q E) (hP : ∀ s, P' s → P s) : Triple P' x Q E := h.weaken hP (fun _ _ => id) fun _ _ => id

theorem Triple.onCode {α : Type} {P R R' : State → Prop} {x : Op α} {Q : α → State → Prop}
    (h : Triple P x Q (OnCode R)) (hR : ∀ s, R s → R' s) : Triple P x Q (OnCode R') :=
  h.weaken (fun _ => id) (fun _ _ => id) fun _ t k c hc => hR t (k c hc)

theorem Triple.of_fact {α : Type} {φ : Prop} {P : State → Prop} {x : Op α} {Q : α → State → Prop}
    {E : Raise → State → Prop} (h : φ → Triple P x Q E) : Triple (fun s => φ ∧ P s) x Q E :=
  fun s hs => h hs.1 s hs.2

/-- Reading a field gives a value of which a fact holds that `P` implies. -/
theorem Triple.view_fact {α β : Type} {P : State → Prop} {f : State → α} {φ : α → Prop} {k : α → Op β}
    {Q : β → State → Prop} {E : Raise → State → Prop} (hf : ∀ s, P s → φ (f s)) (hk : ∀ a, φ a → Triple P (k a) Q E) :
    Triple P (Op.view f >>= k) Q E :=
  Triple.bind (Q := fun a s => φ a ∧ P s) (fun s hs => ⟨hf s hs, hs⟩) fun a => Triple.of_fact (hk a)

/-- A test that is passed holds in the rest. -/
theorem Triple.require_fact {α : Type} {P R : State → Prop} {b : Bool} {c : Code} {k : Unit → Op α}
    {Q : α → State → Prop} (hR : ∀ s, P s → R s) (hk : b = true → Triple P (k ()) Q (OnCode R)) :
    Triple P (Op.require b c >>= k) Q (OnCode R) := by
  refine Triple.bind (Q := fun _ s => b = true ∧ P s) (fun s hs => ?_) fun _ => Triple.of_fact hk
  cases b
  · exact fun _ _ => hR s hs
  · exact ⟨rfl, hs⟩

/-! ## The two records, their counters and memory -/

/-- The part of the invariant that the interrupt context can touch: the RX record's lengths fit, a counted event has its
record, memory is in canonical form (10 R37 (c), 10 R25). -/
structure RecordsOk (s : State) : Prop where
  fits : s.rxRec.valid = true → s.rxRec.Fits s.par
  rxEvent : s.rxEvent ≠ 0 → s.rxRec.valid = true
  txEvent : s.txEvent ≠ 0 → s.txRec.valid = true
  memory : Env.wf s.env

/-- `t` can come after `s`, as far as records, counters and memory go: no valid bit falls, and what held of them
holds. -/
structure Grows (s t : State) : Prop where
  par : t.par = s.par
  rxValid : s.rxRec.valid = true → t.rxRec.valid = true
  txValid : s.txRec.valid = true → t.txRec.valid = true
  ok : RecordsOk s → RecordsOk t

theorem Grows.refl (s : State) : Grows s s := ⟨rfl, id, id, id⟩

theorem Grows.trans {s t u : State} (h : Grows s t) (k : Grows t u) : Grows s u :=
  ⟨k.par.trans h.par, k.rxValid ∘ h.rxValid, k.txValid ∘ h.txValid, k.ok ∘ h.ok⟩

/-- `t` has the records and counters of `s`, and its memory is in canonical form if that of `s` is. -/
structure SameRecords (s t : State) : Prop where
  par : t.par = s.par := by rfl
  rxRec : t.rxRec = s.rxRec := by rfl
  txRec : t.txRec = s.txRec := by rfl
  rxEvent : t.rxEvent = s.rxEvent := by rfl
  txEvent : t.txEvent = s.txEvent := by rfl
  memory : Env.wf s.env → Env.wf t.env := by exact id

theorem SameRecords.trans {s t u : State} (h : SameRecords s t) (k : SameRecords t u) : SameRecords s u :=
  ⟨k.par.trans h.par, k.rxRec.trans h.rxRec, k.txRec.trans h.txRec, k.rxEvent.trans h.rxEvent,
    k.txEvent.trans h.txEvent, k.memory ∘ h.memory⟩

theorem SameRecords.grows {s t : State} (h : SameRecords s t) : Grows s t where
  par := h.par
  rxValid := by rw [h.rxRec]; exact id
  txValid := by rw [h.txRec]; exact id
  ok k := {
    fits := by rw [h.rxRec, h.par]; exact k.fits
    rxEvent := by rw [h.rxRec, h.rxEvent]; exact k.rxEvent
    txEvent := by rw [h.txRec, h.txEvent]; exact k.txEvent
    memory := h.memory k.memory }

theorem Grows.commitRx (s : State) {r : RxRec} (hv : r.valid = true) (hf : r.Fits s.par) : Grows s (s.setRxRec r) :=
  ⟨rfl, fun _ => hv, id, fun h => ⟨fun _ => hf, fun _ => hv, h.txEvent, h.memory⟩⟩

theorem Grows.commitTx (s : State) {r : TxRec} (hv : r.valid = true) : Grows s (s.setTxRec r) :=
  ⟨rfl, id, fun _ => hv, fun h => ⟨h.fits, h.rxEvent, fun _ => hv, h.memory⟩⟩

theorem Grows.countRx {s : State} (hv : s.rxRec.valid = true) (c : Byte) : Grows s (s.setRxEvent c) :=
  ⟨rfl, id, id, fun h => ⟨h.fits, fun _ => hv, h.txEvent, h.memory⟩⟩

theorem Grows.countTx {s : State} (hv : s.txRec.valid = true) (c : Byte) : Grows s (s.setTxEvent c) :=
  ⟨rfl, id, id, fun h => ⟨h.fits, h.rxEvent, fun _ => hv, h.memory⟩⟩

theorem Grows.clearRx (s : State) : Grows s (s.setRxEvent 0) :=
  ⟨rfl, id, id, fun h => ⟨h.fits, fun h0 => absurd rfl h0, h.txEvent, h.memory⟩⟩

theorem Grows.clearTx (s : State) : Grows s (s.setTxEvent 0) :=
  ⟨rfl, id, id, fun h => ⟨h.fits, h.rxEvent, fun h0 => absurd rfl h0, h.memory⟩⟩

theorem SameRecords.envMove (s : State) (m : EnvMove) : SameRecords s (s.envMove m) where
  memory := Env.apply_wf s.par.reg m

theorem SameRecords.foldl_envMove (ms : List EnvMove) (s : State) : SameRecords s (ms.foldl State.envMove s) := by
  induction ms generalizing s with
  | nil => exact {}
  | cons m ms ih => exact (SameRecords.envMove s m).trans (ih _)

theorem SameRecords.afterBusRead (s : State) (c : Ctx) (l : Loc) : SameRecords s (s.afterBusRead c l) where
  memory h := by rw [afterBusRead_env, Env.read_frame]; exact h

theorem SameRecords.afterBusWrite (s : State) (c : Ctx) (l : Loc) (v : Byte) :
    SameRecords s (s.afterBusWrite c l v) where
  memory := Env.write_wf s.par.reg l v

/-! ## The interrupt context keeps them (42 R141 to R144) -/

/-- The property looks at nothing but the records, the counters and memory. -/
def RecordsOnly (P : State → Prop) : Prop := ∀ s t, SameRecords s t → P s → P t

theorem Grows.recordsOnly (s0 : State) : RecordsOnly (Grows s0) := fun _ _ h k => k.trans h.grows

/-- Beside the growth, a record that is valid stays so. -/
theorem RecordsOnly.and_rxValid {P : State → Prop} (hP : RecordsOnly P) :
    RecordsOnly fun s => s.rxRec.valid = true ∧ P s :=
  fun s t h k => ⟨by rw [h.rxRec]; exact k.1, hP s t h k.2⟩

theorem RecordsOnly.and_txValid {P : State → Prop} (hP : RecordsOnly P) :
    RecordsOnly fun s => s.txRec.valid = true ∧ P s :=
  fun s t h k => ⟨by rw [h.txRec]; exact k.1, hP s t h k.2⟩

section InterruptContext
variable {P : State → Prop} (hP : RecordsOnly P)
include hP

theorem irqElem_triple {α : Type} {x : Op α} {Q : α → State → Prop} {E : Raise → State → Prop} (hx : Triple P x Q E) :
    Triple P (irqElem x) Q E := by
  refine Triple.bind (Q := fun _ => P) ?_ fun _ => Triple.bind (Q := fun _ => P) (fun s hs => hP s _ {} hs) fun _ => hx
  intro s hs
  unfold runBoundary
  cases s.env.runMoves with
  | nil => exact hs
  | cons ms rest =>
    have start : SameRecords s (s.setEnv { s.env with runMoves := rest }) := {}
    exact hP s _ (start.trans (SameRecords.foldl_envMove ms _)) hs

theorem irqRead_keeps (l : Loc) : Stays P (irqRead l) :=
  irqElem_triple hP (Stays.busRead _ _ fun s => hP s _ (.afterBusRead s _ l))

theorem irqWrite_keeps (l : Loc) (v : Byte) : Stays P (irqWrite l v) :=
  irqElem_triple hP (Stays.busWrite _ _ _ fun s => hP s _ (.afterBusWrite s _ l v))

/-- A FIFO read returns as many bytes as it was asked for. -/
theorem readFifo_length (b : Loc) (off n : Nat) :
    Triple P (readFifo b off n) (fun vs s => vs.length = n ∧ P s) (OnCode P) := by
  induction n generalizing off with
  | zero => exact fun s hs => ⟨rfl, hs⟩
  | succ n ih =>
    refine Triple.bind (irqRead_keeps hP _) fun v => Triple.bind (ih _) fun vs => Triple.of_fact fun hvs => ?_
    exact fun s hs => ⟨congrArg (· + 1) hvs, hs⟩

end InterruptContext

/-- The shape of a frame that is not dropped (42 R142 line 4): its lengths are those of FrameControl and within
bounds. -/
theorem rxShape_eq_some {p : Params} {L : Nat} {f : Half} {h : RxShape} (hs : rxShape p L f = some h) :
    alen (fcfDm f) = some h.dl ∧ alen (fcfSm f) = some h.sl ∧ h.hdr = 5 + h.dl + h.sl ∧
      L = h.hdr + p.rxTrailerLen + h.n ∧ h.n ≤ 116 ∧ L ≤ 127 := by
  unfold rxShape hdrShape at hs
  cases hd : alen (fcfDm f) with
  | none => simp [hd] at hs
  | some dl =>
    cases hsl : alen (fcfSm f) with
    | none => simp [hd, hsl] at hs
    | some sl =>
      simp only [hd, hsl] at hs
      split_ifs at hs with hmax hmin hpay
      cases hs
      simp only [hdrLen, Config.maxFrame, Config.maxPayload, true_and] at *
      omega

/-- The commit of a frame: the record, which fits its FrameControl, comes before the event. -/
theorem commitFrame_grows {s0 : State} {L : Byte} {fcf : Half} {h : RxShape}
    (hs : rxShape s0.par L.toNat fcf = some h) : Stays (Grows s0) (commitFrame s0.par L fcf h) := by
  have hG := Grows.recordsOnly s0
  obtain ⟨hdl, hsl, hhdr, hL, hn, hL'⟩ := rxShape_eq_some hs
  refine Stays.bind (irqRead_keeps hG _) fun q => Stays.bind (irqRead_keeps hG _) fun pl =>
    Stays.bind (irqRead_keeps hG _) fun ph => ?_
  refine Triple.bind (readFifo_length hG _ _ _) fun d => Triple.of_fact fun hd => ?_
  refine Triple.bind (readFifo_length hG _ _ _) fun src => Triple.of_fact fun hsrc => ?_
  refine Triple.bind (readFifo_length hG _ _ _) fun body => Triple.of_fact fun hbody => ?_
  refine Stays.bind (irqRead_keeps hG _) fun lq => Stays.bind (irqRead_keeps hG _) fun rs => ?_
  refine Triple.bind (Q := fun _ s => s.rxRec.valid = true ∧ Grows s0 s) (irqElem_triple hG fun s hg => ?_) fun _ => ?_
  · exact ⟨rfl, hg.trans (.commitRx s rfl (by rw [hg.par]; exact ⟨hhdr, hdl, hsl, hL, hn, hL', hd, hsrc, hbody⟩))⟩
  · refine Triple.bind ((irqWrite_keeps hG.and_rxValid _ _).onCode fun _ => And.right) fun _ =>
      irqElem_triple hG.and_rxValid fun s hg => ?_
    exact hg.2.trans (.countRx hg.1 _)

theorem opRxpath_grows (s0 : State) : Stays (Grows s0) opRxpath := by
  have hG := Grows.recordsOnly s0
  refine Triple.view_fact (φ := fun p => p = s0.par) (fun s h => h.par) fun p hp => ?_
  subst hp
  refine Stays.bind (irqWrite_keeps hG _ _) fun _ => Stays.bind (irqRead_keeps hG _) fun L =>
    Stays.bind (irqRead_keeps hG _) fun lo => Stays.bind (irqRead_keeps hG _) fun hi => ?_
  split
  · exact irqWrite_keeps hG _ _
  · next hs => exact commitFrame_grows hs

theorem opTxpath_grows (s0 : State) : Stays (Grows s0) opTxpath := by
  have hG := Grows.recordsOnly s0
  refine Stays.bind (Stays.view _) fun p => Stays.bind (irqRead_keeps hG _) fun t => ?_
  refine Triple.bind (Q := fun _ s => s.txRec.valid = true ∧ Grows s0 s) (irqElem_triple hG fun s hg => ?_) fun _ =>
    irqElem_triple hG.and_txValid fun s hg => ?_
  · exact ⟨rfl, hg.trans (.commitTx s rfl)⟩
  · exact hg.2.trans (.countTx hg.1 _)

theorem opIrq_grows (s0 : State) : Stays (Grows s0) opIrq :=
  Stays.bind (Stays.view _) fun _ => Stays.bind (irqRead_keeps (Grows.recordsOnly s0) _) fun _ =>
    Stays.bind (Stays.ite _ (opRxpath_grows s0) (Stays.pure _)) fun _ =>
    Stays.ite _ (opTxpath_grows s0) (Stays.pure _)

theorem irqRun_grows (s0 : State) : Stays (Grows s0) irqRun := by
  intro s hg
  have hx := opIrq_grows s0 (enterIrq s) (Grows.recordsOnly s0 s _ {} hg)
  unfold irqRun
  cases hxs : opIrq (enterIrq s) with
  | ok a t => rw [hxs] at hx; exact Grows.recordsOnly s0 t _ {} hx
  | error e t =>
    rw [hxs] at hx
    cases e with
    | code c => exact Grows.recordsOnly s0 t _ {} (hx c rfl)
    | fault f => exact nofun

theorem drain_grows (s0 : State) (as : List Act) : Stays (Grows s0) (drain as) := by
  have hG := Grows.recordsOnly s0
  induction as with
  | nil =>
    intro s hg
    have hdrawn : Grows s0 (s.setAgenda []).bumpDraws := hG s _ {} hg
    unfold drain
    by_cases hc : entryCond s = true
    · rw [if_pos hc]
      by_cases hp : Config.freePreempt s.env.draws = true
      · rw [if_pos hp]; exact irqRun_grows s0 _ hdrawn
      · rw [if_neg hp]; exact hdrawn
    · rw [if_neg hc]; exact hG s _ {} hg
  | cons a as ih =>
    intro s hg
    cases a with
    | proceed => exact hG s _ {} hg
    | env m => exact ih _ (hG s _ (.envMove s m) hg)
    | startIrq =>
      have hr := irqRun_grows s0 s hg
      unfold drain
      by_cases hc : entryCond s = true
      · rw [if_pos hc]
        cases hx : irqRun s with
        | ok a t => rw [hx] at hr; exact ih t hr
        | error e t => rw [hx] at hr; exact hr
      · rw [if_neg hc]; exact ih s hg

/-! ## What an operation is allowed to change -/

/-- What an operation may change besides the records, the counters, the trace and the environment: a field, or how far a
sequence counter may advance. `held` is the leave to end with the mask set. -/
structure Allowance where
  rst : Bool := false
  drv : Bool := false
  cfg : Bool := false
  mask : Bool := false
  held : Bool := false
  dev : Bool := false
  out : Bool := false
  dec : Bool := false
  localSeq : Nat := 0
  txSeq : Nat := 0

/-- What two operations in a row may change. -/
def Allowance.plus (a b : Allowance) : Allowance where
  rst := a.rst || b.rst
  drv := a.drv || b.drv
  cfg := a.cfg || b.cfg
  mask := a.mask || b.mask
  held := a.held || b.held
  dev := a.dev || b.dev
  out := a.out || b.out
  dec := a.dec || b.dec
  localSeq := a.localSeq + b.localSeq
  txSeq := a.txSeq + b.txSeq

/-- Everything `a` allows, `b` allows. -/
def Allowance.le (a b : Allowance) : Bool :=
  (!a.rst || b.rst) && (!a.drv || b.drv) && (!a.cfg || b.cfg) && (!a.mask || b.mask) && (!a.held || b.held) &&
    (!a.dev || b.dev) && (!a.out || b.out) && (!a.dec || b.dec) && decide (a.localSeq ≤ b.localSeq) &&
    decide (a.txSeq ≤ b.txSeq)

theorem Allowance.le_plus_left (a b : Allowance) : a.le (a.plus b) = true := by
  have kept (x y : Bool) : (!x || (x || y)) = true := by cases x <;> rfl
  simp [Allowance.le, Allowance.plus, kept]

theorem Allowance.le_plus_right (a b : Allowance) : b.le (a.plus b) = true := by
  have kept (x y : Bool) : (!y || (x || y)) = true := by cases x <;> cases y <;> rfl
  simp [Allowance.le, Allowance.plus, kept]

@[simp] theorem Allowance.none_plus (w : Allowance) : Allowance.plus {} w = w := by
  simp [Allowance.plus]

@[simp] theorem Allowance.plus_none (w : Allowance) : w.plus {} = w := by
  simp [Allowance.plus]

/-- `t` can come after `s` within the allowance `w`: the frame of 10 R27 to R31 and 60 R205, and that no valid bit falls
and the records hold together (10 R37). -/
structure Within (w : Allowance) (s t : State) : Prop where
  grows : Grows s t
  hostq : t.hostq = s.hostq := by rfl
  irqActive : t.irqActive = s.irqActive := by rfl
  irqCtl : t.irqCtl = s.irqCtl := by rfl
  coordinator : t.cfg.coordinator = s.cfg.coordinator := by rfl
  identities : t.dev.map (·.identity) = s.dev.map (·.identity) := by rfl
  rst : w.rst = false → t.rstN = s.rstN ∧ t.pins = s.pins := by exact fun _ => ⟨rfl, rfl⟩
  drv : w.drv = false → t.drv = s.drv := by exact fun _ => rfl
  cfg : w.cfg = false → t.cfg = s.cfg := by exact fun _ => rfl
  mask : w.mask = false → t.irqMask = s.irqMask := by exact fun _ => rfl
  unheld : w.held = false → s.par.wf = true → s.irqMask = false → t.irqMask = false := by exact fun _ _ => id
  dev : w.dev = false → t.dev = s.dev := by exact fun _ => rfl
  out : w.out = false → t.out = s.out := by exact fun _ => rfl
  dec : w.dec = false → t.dec = s.dec := by exact fun _ => rfl
  localSeq : ∃ k ≤ w.localSeq, t.localSeq = s.localSeq + BitVec.ofNat 8 k := by
    exact ⟨0, Nat.zero_le _, (BitVec.add_zero _).symm⟩
  txSeq : ∃ k ≤ w.txSeq, t.txSeq = s.txSeq + BitVec.ofNat 8 k := by
    exact ⟨0, Nat.zero_le _, (BitVec.add_zero _).symm⟩

namespace Within

theorem refl (w : Allowance) (s : State) : Within w s s where
  grows := .refl s

/-- A counter that advanced by at most `m` and then by at most `n` advanced by at most `m + n`. -/
theorem advance_trans {a b c : Byte} {m n : Nat} (h : ∃ k ≤ m, b = a + BitVec.ofNat 8 k)
    (k : ∃ k ≤ n, c = b + BitVec.ofNat 8 k) : ∃ k ≤ m + n, c = a + BitVec.ofNat 8 k := by
  obtain ⟨i, hi, rfl⟩ := h
  obtain ⟨j, hj, rfl⟩ := k
  exact ⟨i + j, Nat.add_le_add hi hj, by rw [BitVec.ofNat_add, BitVec.add_assoc]⟩

theorem trans {w w' : Allowance} {s t u : State} (h : Within w s t) (k : Within w' t u) :
    Within (w.plus w') s u := by
  have both {α : Type} {a b : Bool} {x y z : α} (h : a = false → y = x) (k : b = false → z = y) :
      (a || b) = false → z = x := fun hab =>
    have ⟨ha, hb⟩ := Bool.or_eq_false_iff.1 hab
    (k hb).trans (h ha)
  exact {
    grows := h.grows.trans k.grows
    hostq := k.hostq.trans h.hostq
    irqActive := k.irqActive.trans h.irqActive
    irqCtl := k.irqCtl.trans h.irqCtl
    coordinator := k.coordinator.trans h.coordinator
    identities := k.identities.trans h.identities
    rst := fun hw => ⟨both (fun ha => (h.rst ha).1) (fun hb => (k.rst hb).1) hw,
      both (fun ha => (h.rst ha).2) (fun hb => (k.rst hb).2) hw⟩
    drv := both h.drv k.drv
    cfg := both h.cfg k.cfg
    mask := both h.mask k.mask
    unheld := fun hw hp hm =>
      have ⟨ha, hb⟩ := Bool.or_eq_false_iff.1 hw
      k.unheld hb (by rw [h.grows.par]; exact hp) (h.unheld ha hp hm)
    dev := both h.dev k.dev
    out := both h.out k.out
    dec := both h.dec k.dec
    localSeq := advance_trans h.localSeq k.localSeq
    txSeq := advance_trans h.txSeq k.txSeq }

theorem mono {w w' : Allowance} {s t : State} (h : Within w s t) (hw : w.le w' = true) : Within w' s t := by
  simp only [Allowance.le, Bool.and_eq_true, Bool.or_eq_true, Bool.not_eq_true', decide_eq_true_eq] at hw
  obtain ⟨⟨⟨⟨⟨⟨⟨⟨⟨hrst, hdrv⟩, hcfg⟩, hmask⟩, hheld⟩, hdev⟩, hout⟩, hdec⟩, hls⟩, htx⟩ := hw
  have lower {a b : Bool} (hab : a = false ∨ b = true) (hb : b = false) : a = false := by
    rcases hab with ha | hb'
    · exact ha
    · exact absurd (hb.symm.trans hb') (by decide)
  exact { h with
    rst := fun hw => h.rst (lower hrst hw)
    drv := fun hw => h.drv (lower hdrv hw)
    cfg := fun hw => h.cfg (lower hcfg hw)
    mask := fun hw => h.mask (lower hmask hw)
    unheld := fun hw => h.unheld (lower hheld hw)
    dev := fun hw => h.dev (lower hdev hw)
    out := fun hw => h.out (lower hout hw)
    dec := fun hw => h.dec (lower hdec hw)
    localSeq := let ⟨k, hk, e⟩ := h.localSeq; ⟨k, hk.trans hls, e⟩
    txSeq := let ⟨k, hk, e⟩ := h.txSeq; ⟨k, hk.trans htx, e⟩ }

theorem none_trans {w : Allowance} {s t u : State} (h : Within {} s t) (k : Within w t u) : Within w s u :=
  w.none_plus ▸ h.trans k

/-- What the interrupt context and the environment do is within every allowance. -/
theorem of_irqFrame {s t : State} (h : IrqFrame s t) (hg : Grows s t) (w : Allowance) : Within w s t where
  grows := hg
  hostq := by rw [h]
  irqActive := by rw [h]
  irqCtl := by rw [h]
  coordinator := by rw [h]
  identities := by rw [h]
  rst _ := ⟨by rw [h], by rw [h]⟩
  drv _ := by rw [h]
  cfg _ := by rw [h]
  mask _ := by rw [h]
  unheld _ _ hm := by rw [h]; exact hm
  dev _ := by rw [h]
  out _ := by rw [h]
  dec _ := by rw [h]
  localSeq := ⟨0, Nat.zero_le _, by rw [h]; simp⟩
  txSeq := ⟨0, Nat.zero_le _, by rw [h]; simp⟩

/-! ### The updates of the main context -/

section Updates
variable (s : State)

theorem setMainCtl (c : Ctl) : Within {} s (s.setMainCtl c) where grows := SameRecords.grows {}
theorem finish (c : Code) (v : Value) : Within {} s (s.finish c v) where grows := SameRecords.grows {}
theorem setRxEvent : Within {} s (s.setRxEvent 0) where grows := .clearRx s
theorem setTxEvent : Within {} s (s.setTxEvent 0) where grows := .clearTx s
theorem emit (e : OutEvent) : Within { out := true } s (s.emit e) where grows := SameRecords.grows {}; out := nofun
theorem setDec (d : DecCtx) : Within { dec := true } s (s.setDec d) where grows := SameRecords.grows {}; dec := nofun
theorem setDrv (d : DrvStatus) : Within { drv := true } s (s.setDrv d) where grows := SameRecords.grows {}; drv := nofun

theorem pushPin (e : PinEvent) : Within { rst := true } s (s.pushPin e) where
  grows := SameRecords.grows {}
  rst := nofun

theorem setCfg (c : RadioConfig) (hc : c.coordinator = s.cfg.coordinator := by rfl) :
    Within { cfg := true } s (s.setCfg c) where
  grows := SameRecords.grows {}
  coordinator := hc
  cfg := nofun

theorem initBegin : Within { drv := true, cfg := true } s (initBegin s) where
  grows := SameRecords.grows {}
  drv := nofun
  cfg := nofun

theorem maskIrq : Within { mask := true, held := true } s (s.setIrqMask true) where
  grows := SameRecords.grows {}
  mask := nofun
  unheld := nofun

theorem unmaskIrq : Within { mask := true } s (s.setIrqMask false) where
  grows := SameRecords.grows {}
  mask := nofun
  unheld _ _ _ := rfl

theorem advanceTxSeq : Within { txSeq := 1 } s (s.setTxSeq (inc8 s.txSeq)) where
  grows := SameRecords.grows {}
  txSeq := ⟨1, le_rfl, rfl⟩

theorem advanceLocalSeq : Within { localSeq := 1 } s (s.setLocalSeq (inc8 s.localSeq)) where
  grows := SameRecords.grows {}
  localSeq := ⟨1, le_rfl, rfl⟩

theorem driveRst (level : Bool) : Within { rst := true } s (driveRst level s) := by
  cases level with
  | true => exact { grows := SameRecords.grows {}, rst := nofun }
  | false => exact { grows := SameRecords.grows { memory := fun _ => Env.chipReset_wf _ }, rst := nofun }

theorem afterBusRead (c : Ctx) (l : Loc) : Within {} s (s.afterBusRead c l) where
  grows := (SameRecords.afterBusRead s c l).grows

theorem afterBusWrite (c : Ctx) (l : Loc) (v : Byte) : Within {} s (s.afterBusWrite c l v) where
  grows := (SameRecords.afterBusWrite s c l v).grows

/-- A change of the source's record that keeps its identity keeps the identities (10 R37 (a)). -/
theorem updateSlot_identities (dev : List DeviceRecord) (slot : Option Nat) {f : DeviceRecord → DeviceRecord}
    (hf : ∀ d, (f d).identity = d.identity) :
    (updateSlot dev slot f).map (·.identity) = dev.map (·.identity) := by
  cases slot with
  | none => rfl
  | some i =>
    refine List.ext_getElem? fun k => ?_
    simp only [updateSlot, List.getElem?_map, List.getElem?_modify]
    cases dev[k]? with
    | none => rfl
    | some d => by_cases hk : i = k <;> simp [hk, hf]

theorem mutateDev {f : DeviceRecord → DeviceRecord} (hf : ∀ d, (f d).identity = d.identity) :
    Within { dev := true } s (s.setDev (updateSlot s.dev s.dec.slot f)) where
  grows := SameRecords.grows {}
  identities := updateSlot_identities _ _ hf
  dev := nofun

end Updates

end Within

/-! ## Operations and their allowance -/

/-- Ended well or with a code, the operation stays within its allowance. -/
def Touches {α : Type} (w : Allowance) (x : Op α) : Prop :=
  ∀ s, match x s with | .ok _ t => Within w s t | .error e t => OnCode (Within w s) e t

namespace Touches

theorem mono {α : Type} {w w' : Allowance} {x : Op α} (hx : Touches w x) (hw : w.le w' = true) : Touches w' x := by
  intro s
  have h := hx s
  cases hxs : x s with
  | ok a t => rw [hxs] at h; exact h.mono hw
  | error e t => rw [hxs] at h; exact fun c hc => (h c hc).mono hw

theorem bind {α β : Type} {w w' : Allowance} {x : Op α} {k : α → Op β} (hx : Touches w x) (hk : ∀ a, Touches w' (k a)) :
    Touches (w.plus w') (x >>= k) := by
  intro s
  have h := hx s
  rw [op_bind]
  cases hxs : x s with
  | error e t => rw [hxs] at h; exact fun c hc => (h c hc).trans (.refl w' t)
  | ok a t =>
    rw [hxs] at h
    have h' := hk a t
    simp only
    cases hks : k a t with
    | ok b u => rw [hks] at h'; exact h.trans h'
    | error e u => rw [hks] at h'; exact fun c hc => h.trans (h' c hc)

theorem ite {α : Type} {w w' : Allowance} (b : Prop) [Decidable b] {x y : Op α} (hx : Touches w x) (hy : Touches w' y) :
    Touches (w.plus w') (if b then x else y) := by
  split
  · exact hx.mono (w.le_plus_left w')
  · exact hy.mono (w.le_plus_right w')

theorem pure {α : Type} (a : α) : Touches {} (pure a : Op α) := fun s => .refl _ s
theorem view {α : Type} (f : State → α) : Touches {} (Op.view f) := fun s => .refl _ s
theorem raise {α : Type} (c : Code) : Touches {} (Op.raise c : Op α) := fun s _ _ => .refl _ s
theorem update {w : Allowance} {f : State → State} (h : ∀ s, Within w s (f s)) : Touches w (Op.update f) := h

theorem require (b : Bool) (c : Code) : Touches {} (Op.require b c) := by
  intro s
  cases b
  · exact fun _ _ => .refl _ s
  · exact .refl _ s

theorem attempt {w : Allowance} {x : Op Unit} (hx : Touches w x) : Touches w (Op.attempt x) := by
  intro s
  have h := hx s
  unfold Op.attempt
  cases hxs : x s with
  | ok a t => rw [hxs] at h; exact h
  | error e t =>
    rw [hxs] at h
    cases e with
    | code c => exact h c rfl
    | fault f => exact nofun

/-- A property that every change within the allowance keeps, the operation keeps. -/
theorem stays {α : Type} {w : Allowance} {x : Op α} {P : State → Prop} (hx : Touches w x)
    (hP : ∀ s t, Within w s t → P s → P t) : Stays P x := by
  intro s hs
  have h := hx s
  cases hxs : x s with
  | ok a t => rw [hxs] at h; exact hP s t h hs
  | error e t => rw [hxs] at h; exact fun c hc => hP s t (h c hc) hs

/-- Between two elementary steps the interrupt context and the environment move, and no code comes of it. -/
theorem boundary : Touches {} boundary := by
  intro s
  have hf := drain_frame s.env.agenda s
  have hg := drain_grows s s.env.agenda s (.refl s)
  rw [show Machine.boundary s = drain s.env.agenda s from rfl]
  cases hx : drain s.env.agenda s with
  | ok a t => rw [hx] at hf hg; exact .of_irqFrame hf hg _
  | error e t =>
    rw [hx] at hf
    obtain ⟨f, rfl⟩ := hf
    exact nofun

theorem elem {α : Type} {w : Allowance} {x : Op α} (hx : Touches w x) : Touches w (elem x) :=
  have h := bind boundary fun _ => bind (update fun s => .setMainCtl s s.mainCtl.tick) fun _ => hx
  by rwa [w.none_plus, w.none_plus] at h

theorem mainUpdate {w : Allowance} {f : State → State} (h : ∀ s, Within w s (f s)) : Touches w (mainUpdate f) :=
  elem (update h)

/-! ### Transactions -/

theorem mainRead (l : Loc) : Touches {} (mainRead l) :=
  elem fun s => Stays.busRead .main l (fun t h => h.none_trans (.afterBusRead t _ _)) s (Within.refl {} s)

theorem mainWrite (l : Loc) (v : Byte) : Touches {} (mainWrite l v) :=
  elem fun s => Stays.busWrite .main l v (fun t h => h.none_trans (.afterBusWrite t _ _ _)) s (Within.refl {} s)

theorem wrPair (lo hi : Loc) (v : Half) : Touches {} (wrPair lo hi v) := bind (mainWrite _ _) fun _ => mainWrite _ _

theorem rdPair (lo hi : Loc) : Touches {} (rdPair lo hi) :=
  bind (mainRead _) fun _ => bind (mainRead _) fun _ => pure _

theorem wrFifo (b : Loc) (off : Nat) (vs : List Byte) : Touches {} (wrFifo b off vs) := by
  induction vs generalizing off with
  | nil => exact pure _
  | cons v vs ih => exact bind (mainWrite _ _) fun _ => ih _

theorem pollUntil (l : Loc) (m v : Byte) (k : Nat) : Touches {} (pollUntil l m v k) := by
  induction k with
  | zero => exact pure _
  | succ k ih => exact bind (mainRead _) fun _ => ite _ (pure _) ih

theorem requireReady : Touches {} requireReady := bind (view _) fun _ => require _ _

/-! ### The radio driver (41 R111 to R127) -/

theorem opReset : Touches { rst := true, drv := true } opReset :=
  bind (view _) fun _ => bind (mainUpdate fun s => .driveRst s false) fun _ =>
    bind (mainUpdate fun s => .pushPin s _) fun _ => bind (mainUpdate fun s => .driveRst s true) fun _ =>
    bind (mainUpdate fun s => .pushPin s _) fun _ => bind (mainUpdate fun s => .setDrv s _) fun _ => pure _

theorem hwFault {α : Type} (c : Code) : Touches { drv := true } (hwFault c : Op α) :=
  bind (mainUpdate fun s => .setDrv s _) fun _ => raise c

theorem writeEadr (b : Loc) (off : Nat) (vs : List Byte) : Touches {} (writeEadr b off vs) := by
  induction vs generalizing off with
  | nil => exact pure _
  | cons v vs ih => exact bind (mainWrite _ _) fun _ => ih _

theorem readEadr (b : Loc) (is : List (Fin 8)) : Touches { cfg := true } (readEadr b is) := by
  induction is with
  | nil => exact (pure _).mono rfl
  | cons i is ih => exact bind (mainRead _) fun _ => bind (mainUpdate fun s => .setCfg s _) fun _ => ih

theorem loadExtendedAddress (b : Loc) : Touches { cfg := true } (loadExtendedAddress b) :=
  bind (view _) fun _ => ite _ (writeEadr _ _ _)
    (bind (readEadr _ _) fun _ => mainUpdate fun s => .setCfg s _)

theorem writeCal (ws : List (Loc × Byte)) : Touches {} (writeCal ws) := by
  induction ws with
  | nil => exact pure _
  | cons w ws ih => exact bind (mainWrite _ _) fun _ => ih

theorem tuneChannel (r : RegMap) (n : Byte) : Touches { cfg := true } (tuneChannel r n) :=
  bind (mainWrite _ _) fun _ => bind (mainWrite _ _) fun _ => bind (mainWrite _ _) fun _ =>
    mainUpdate fun s => .setCfg s _

theorem initConfigure (p : Params) : Touches { cfg := true } (initConfigure p) :=
  bind (mainWrite _ _) fun _ => bind (wrPair _ _ _) fun _ => bind (mainUpdate fun s => .setCfg s _) fun _ =>
    bind (wrPair _ _ _) fun _ => bind (mainUpdate fun s => .setCfg s _) fun _ =>
    bind (loadExtendedAddress _) fun _ => writeCal _

theorem initComplete (p : Params) : Touches { drv := true, cfg := true } (initComplete p) :=
  bind (mainWrite _ _) fun _ => bind (tuneChannel _ _) fun _ => mainUpdate fun s => .setDrv s _

theorem opInit : Touches { drv := true, cfg := true } opInit :=
  bind (view _) fun _ => bind (require _ _) fun _ => bind (view _) fun _ => bind (mainUpdate Within.initBegin) fun _ =>
    bind (mainWrite _ _) fun _ => bind (pollUntil _ _ _ _) fun _ =>
    ite _ (bind (initConfigure _) fun _ => bind (pollUntil _ _ _ _) fun _ =>
      ite _ (bind (initComplete _) fun _ => pure _) (hwFault _)) (hwFault _)

theorem unslot (r : RegMap) : Touches {} (unslot r) :=
  bind (mainRead _) fun _ => bind (mainWrite _ _) fun _ => mainWrite _ _

end Touches

/-! ## The mask is off after a send (20 R58, 41 R125)

With a well-formed map no transaction of the masked part is refused, so that only a stuck bus keeps it from its
`unmask_irq()`. -/

/-- No result code ends the operation early. -/
def Unrefused {α : Type} (x : Op α) : Prop := Triple (fun _ => True) x (fun _ _ => True) (fun e _ => ∃ f, e = .fault f)

namespace Unrefused

theorem bind {α β : Type} {x : Op α} {k : α → Op β} (hx : Unrefused x) (hk : ∀ a, Unrefused (k a)) :
    Unrefused (x >>= k) := Triple.bind hx hk

theorem pure {α : Type} (a : α) : Unrefused (pure a : Op α) := fun _ h => h
theorem view {α : Type} (f : State → α) : Unrefused (Op.view f) := fun _ h => h
theorem update (f : State → State) : Unrefused (Op.update f) := fun _ h => h

theorem boundary : Unrefused boundary := by
  intro s _
  have h := drain_frame s.env.agenda s
  rw [show Machine.boundary s = drain s.env.agenda s from rfl]
  cases hx : drain s.env.agenda s with
  | ok a t => trivial
  | error e t => rw [hx] at h; exact h

theorem elem {α : Type} {x : Op α} (hx : Unrefused x) : Unrefused (elem x) :=
  bind boundary fun _ => bind (update _) fun _ => hx

theorem mainWrite {l : Loc} (hl : l.inRange = true) (v : Byte) : Unrefused (mainWrite l v) := by
  refine elem fun s _ => ?_
  by_cases hs : s.env.stuckAfter = some 0
  · rw [show busWrite .main l v s = .error (.fault (.busStuck .main)) s by simp [busWrite, hl, hs]]
    exact ⟨_, rfl⟩
  · rw [show busWrite .main l v s = .ok () (s.afterBusWrite .main l v) by simp [busWrite, hl, hs]]
    trivial

theorem wrFifo {b : Loc} {n : Nat} (hb : b.windowInRange n = true) (off : Nat) (vs : List Byte)
    (hn : off + vs.length ≤ n) : Unrefused (wrFifo b off vs) := by
  induction vs generalizing off with
  | nil => exact pure _
  | cons v vs ih =>
    simp only [List.length_cons] at hn
    exact bind (mainWrite (locPlus_inRange hb (by omega)) v) fun _ => ih (off + 1) (by omega)

theorem writeHeader {b : Loc} {n : Nat} (hb : b.windowInRange n = true) (hn : 7 ≤ n) (hdr len : Nat) (fcf : Half) :
    Unrefused (writeHeader b hdr len fcf) :=
  bind (wrFifo hb _ _ (show 0 + 4 ≤ n by omega)) fun _ =>
    bind (view _) fun q => bind (wrFifo hb _ _ (show 4 + 1 ≤ n by omega)) fun _ =>
    bind (elem (update _)) fun _ => bind (view _) fun c =>
    wrFifo hb _ _ (show 5 + 2 ≤ n by omega)

/-- An unrefused operation before one with a postcondition. -/
theorem before {α β : Type} {x : Op α} {k : α → Op β} {Q : β → State → Prop} {R : State → Prop} (hx : Unrefused x)
    (hk : ∀ a, Triple (fun _ => True) (k a) Q (OnCode R)) : Triple (fun _ => True) (x >>= k) Q (OnCode R) :=
  Triple.bind (hx.weaken (fun _ => id) (fun _ _ => id) fun _ _ ⟨_, hf⟩ _ hc => by rw [hf] at hc; cases hc) hk

end Unrefused

/-- No mask is set (20 R58). -/
abbrev Unmasked (s : State) : Prop := s.irqMask = false

theorem unmaskIrq_unmasks : Triple (fun _ => True) (elem unmaskIrq) (fun _ => Unmasked) (OnCode Unmasked) :=
  Unrefused.before Unrefused.boundary fun _ => Unrefused.before (Unrefused.update _) fun _ _ _ => rfl

/-- The two length bounds of 41 R125, as numbers. -/
theorem lengthOk_iff (hdr len : Nat) : lengthOk hdr len = true ↔ len ≤ 116 ∧ hdr + len ≤ 127 := by
  rw [lengthOk, Bool.and_eq_true, decide_eq_true_eq, decide_eq_true_eq]
  rfl

theorem srcAddr_length_le (c : RadioConfig) (sl : Nat) : (srcAddr c sl).length ≤ sl := by
  unfold srcAddr
  split
  · next h => simp [h]
  · split
    · next h => simp [h, leBytes]
    · exact Nat.zero_le _

theorem writeFrame_unmasks {p : Params} (hp : p.wf = true) {h : HdrShape} (fcf : Half) {payload : List Byte}
    (hlen : lengthOk (hdrLen h) payload.length = true) :
    Triple (fun _ => True) (writeFrame p h fcf payload) (fun _ => Unmasked) (OnCode Unmasked) := by
  obtain ⟨hreg, -, htx, -⟩ := RegMap.ranges (Params.reg_wf hp)
  obtain ⟨-, hlen⟩ := (lengthOk_iff _ _).1 hlen
  simp only [hdrLen] at hlen
  refine Unrefused.before (Unrefused.writeHeader htx (by omega) _ _ _) fun _ =>
    Unrefused.before (Unrefused.view _) fun r => Unrefused.before (Unrefused.wrFifo htx _ _ ?_) fun _ =>
    Unrefused.before (Unrefused.view _) fun c =>
    Unrefused.before (Unrefused.wrFifo htx _ _ ?_) fun _ => Unrefused.before (Unrefused.wrFifo htx _ _ ?_) fun _ =>
    Unrefused.before (Unrefused.mainWrite (hreg _ (by simp)) _) fun _ => unmaskIrq_unmasks
  · have := List.length_take_le h.dl r.src
    omega
  · have := srcAddr_length_le c h.sl
    omega
  · simp only [hdrLen]
    omega

theorem sendMasked_unmasks {p : Params} (hp : p.wf = true) {h : HdrShape} (fcf : Half) {payload : List Byte}
    (hlen : lengthOk (hdrLen h) payload.length = true) :
    Triple (fun _ => True) (sendMasked p h fcf payload) (fun _ => Unmasked) (OnCode Unmasked) := by
  refine Unrefused.before (Unrefused.elem (Unrefused.update _)) fun _ => Unrefused.before (Unrefused.view _) fun r => ?_
  split
  · exact Triple.bind unmaskIrq_unmasks fun _ _ ht _ _ => ht
  · exact writeFrame_unmasks hp fcf hlen

/-- Where a send may start: a well-formed configuration and no mask set. -/
abbrev MaySend (s : State) : Prop := s.par.wf = true ∧ Unmasked s

theorem requireReady_maySend : Stays MaySend requireReady := Stays.bind (Stays.view _) fun _ => Stays.require _ _

theorem opSend_unmasks (fcf : Half) (payload : List Byte) :
    Triple MaySend (opSend fcf payload) (fun _ => Unmasked) (OnCode Unmasked) := by
  refine Triple.bind (requireReady_maySend.onCode fun _ => And.right) fun _ =>
    Triple.view_fact (φ := fun p => p.wf = true) (fun s h => h.1) fun p hp => ?_
  split
  · exact fun s h _ _ => h.2
  · exact Triple.require_fact (fun s h => h.2) fun hlen =>
      (sendMasked_unmasks hp fcf hlen).pre fun _ _ => trivial

theorem opSend16Ack_unmasks (dest : Half) (payload : List Byte) :
    Triple MaySend (opSend16Ack dest payload) (fun _ => Unmasked) (OnCode Unmasked) := by
  refine Triple.bind (requireReady_maySend.onCode fun _ => And.right) fun _ =>
    Triple.require_fact (fun s h => h.2) fun hlen =>
    Triple.view_fact (φ := fun p => p.wf = true) (fun s h => h.1) fun p hp => ?_
  obtain ⟨hreg, -, htx, -⟩ := RegMap.ranges (Params.reg_wf hp)
  have hlen : payload.length ≤ 116 := of_decide_eq_true hlen
  refine Triple.pre (P := fun _ => True) ?_ fun _ _ => trivial
  refine Unrefused.before (Unrefused.elem (Unrefused.update _)) fun _ =>
    Unrefused.before (Unrefused.writeHeader htx (by omega) _ _ _) fun _ =>
    Unrefused.before (Unrefused.wrFifo htx 7 (leBytes dest) (show 7 + 2 ≤ 129 by decide)) fun _ =>
    Unrefused.before (Unrefused.view _) fun c =>
    Unrefused.before (Unrefused.wrFifo htx 9 (leBytes c.short) (show 9 + 2 ≤ 129 by decide)) fun _ =>
    Unrefused.before (Unrefused.wrFifo htx _ _ (by omega)) fun _ =>
    Unrefused.before (Unrefused.mainWrite (hreg _ (by simp)) _) fun _ => unmaskIrq_unmasks

/-! ## Sending, the decoder and the pump within their allowance -/

/-- Sending a frame: the mask is set and taken away, `tx_seq` advances (10 R29). -/
abbrev sending : Allowance := { mask := true, txSeq := 1 }

/-- A decoder action at most (43 R164 to R171). -/
abbrev decoding : Allowance := { sending with dev := true, out := true, localSeq := 1 }

namespace Touches

/-- An operation that may hold the mask, and that in fact leaves it off. -/
theorem released {α : Type} {w : Allowance} {x : Op α} (hx : Touches { w with held := true } x)
    (hm : Triple MaySend x (fun _ => Unmasked) (OnCode Unmasked)) : Touches w x := by
  intro s
  have h := hx s
  have hu := hm s
  cases hxs : x s with
  | ok a t =>
    rw [hxs] at h hu
    exact { h with unheld := fun _ hp hs => hu ⟨hp, hs⟩ }
  | error e t =>
    rw [hxs] at h hu
    exact fun c hc => { h c hc with unheld := fun _ hp hs => hu ⟨hp, hs⟩ c hc }

theorem writeHeader (b : Loc) (hdr len : Nat) (fcf : Half) : Touches { txSeq := 1 } (writeHeader b hdr len fcf) :=
  bind (wrFifo _ _ _) fun _ => bind (view _) fun _ => bind (wrFifo _ _ _) fun _ =>
    bind (mainUpdate Within.advanceTxSeq) fun _ => bind (view _) fun _ => wrFifo _ _ _

theorem writeFrame (p : Params) (h : HdrShape) (fcf : Half) (payload : List Byte) :
    Touches sending (writeFrame p h fcf payload) :=
  bind (writeHeader _ _ _ _) fun _ => bind (view _) fun _ => bind (wrFifo _ _ _) fun _ => bind (view _) fun _ =>
    bind (wrFifo _ _ _) fun _ => bind (wrFifo _ _ _) fun _ => bind (mainWrite _ _) fun _ =>
    elem (update Within.unmaskIrq)

theorem sendMasked (p : Params) (h : HdrShape) (fcf : Half) (payload : List Byte) :
    Touches { sending with held := true } (sendMasked p h fcf payload) :=
  bind (elem (update Within.maskIrq)) fun _ => bind (view _) fun _ =>
    ite _ (bind (elem (update Within.unmaskIrq)) fun _ => raise _) (writeFrame _ _ _ _)

theorem opSend (fcf : Half) (payload : List Byte) : Touches sending (opSend fcf payload) := by
  refine released (bind requireReady fun _ => bind (w' := { sending with held := true }) (view _) fun _ => ?_)
    (opSend_unmasks fcf payload)
  cases hdrShape fcf with
  | none => exact (raise _).mono rfl
  | some h => exact bind (require _ _) fun _ => sendMasked _ _ _ _

theorem opSend16Ack (dest : Half) (payload : List Byte) : Touches sending (opSend16Ack dest payload) :=
  released (bind requireReady fun _ => bind (require _ _) fun _ => bind (view _) fun _ =>
    bind (elem (update Within.maskIrq)) fun _ => bind (writeHeader _ _ _ _) fun _ => bind (wrFifo _ _ _) fun _ =>
    bind (view _) fun _ => bind (wrFifo _ _ _) fun _ => bind (wrFifo _ _ _) fun _ => bind (mainWrite _ _) fun _ =>
    elem (update Within.unmaskIrq)) (opSend16Ack_unmasks dest payload)

theorem mainEmit (e : OutEvent) : Touches { out := true } (mainEmit e) := mainUpdate fun s => .emit s e

/-- `next_ls()` reads and increments in one look. -/
theorem nextLs : Touches { localSeq := 1 } nextLs := elem Within.advanceLocalSeq

theorem opReply (fcf : Half) (body : List Byte) : Touches { sending with out := true } (opReply fcf body) :=
  bind (opSend _ _).attempt fun _ => ite _ (pure _) (mainEmit _)

theorem mutateDev {f : DeviceRecord → DeviceRecord} (hf : ∀ d, (f d).identity = d.identity := by exact fun _ => rfl) :
    Touches { dev := true } (mutateDev f) := mainUpdate fun s => .mutateDev s hf

theorem forwardFrame (tag : Tag) : Touches { out := true } (forwardFrame tag) := bind (view _) fun _ => mainEmit _

theorem opM07 (p1 : Byte) : Touches { sending with dev := true, out := true } (opM07 p1) :=
  bind mutateDev fun _ => bind (view _) fun _ => opReply _ _

theorem opM01A : Touches { sending with dev := true, out := true } opM01A := bind mutateDev fun _ => opReply _ _

theorem opM13 (p1 : Byte) : Touches decoding (opM13 p1) := bind mutateDev fun _ => bind nextLs fun _ => opReply _ _

theorem opM08 (p2 : Byte) : Touches decoding (opM08 p2) :=
  bind mutateDev fun _ => bind nextLs fun _ => bind (view _) fun _ => opReply _ _

theorem opM01D (p1 p2 : Byte) : Touches decoding (opM01D p1 p2) :=
  bind mutateDev fun _ => bind nextLs fun _ => bind (opReply _ _) fun _ => forwardFrame _

theorem opM02 (p2 : Byte) : Touches decoding (opM02 p2) :=
  bind mutateDev fun _ => bind nextLs fun _ => bind (view _) fun _ => bind (opReply _ _) fun _ => forwardFrame _

theorem opM0A (p1 : Byte) : Touches { dev := true } (opM0A p1) := mutateDev
theorem opMXX : Touches { out := true } opMXX := forwardFrame _
theorem opMalformed : Touches { out := true } opMalformed := bind (view _) fun _ => ite _ (forwardFrame _) (pure _)

theorem runAction (i : Instr) : Touches decoding (runAction i) := by
  cases i with
  | m07 p1 => exact (opM07 p1).mono rfl
  | m01a => exact opM01A.mono rfl
  | m13 p1 => exact opM13 p1
  | m08 p2 => exact opM08 p2
  | m01d p1 p2 => exact opM01D p1 p2
  | m02 p2 => exact opM02 p2
  | m0a p1 => exact (opM0A p1).mono rfl
  | mxx t => exact opMXX.mono rfl
  | malformed => exact opMalformed.mono rfl
  | _ => exact (pure ()).mono rfl

theorem opOnReceive : Touches { decoding with dec := true } opOnReceive :=
  bind (mainUpdate fun s => .setDec s _) fun _ => bind (view _) fun _ => runAction _

theorem opOnTxComplete : Touches { out := true } opOnTxComplete := bind (elem (view _)) fun _ => mainEmit _
theorem testClearRx : Touches {} testClearRx := elem Within.setRxEvent
theorem testClearTx : Touches {} testClearTx := elem Within.setTxEvent

theorem opPoll : Touches { decoding with dec := true } opPoll :=
  bind testClearRx fun _ => bind (ite _ opOnReceive (pure _)) fun _ => bind testClearTx fun _ =>
    ite _ opOnTxComplete (pure _)

end Touches

/-! ## The rows -/

/-- What a row may change (10 R27 to R31, 60 R205, 43 R160). -/
def rowAllowance (i : Instr) : Allowance where
  rst := decide (i = .reset)
  drv := decide (i = .reset) || decide (i = .init)
  cfg := i.mayWriteCfg
  mask := i.mayWriteTxSeq
  dev := i.mayWriteDev
  out := i.mayEmit
  dec := decide (i = .poll) || decide (i = .onReceive)
  localSeq := i.mayWriteLocalSeq.toNat
  txSeq := i.mayWriteTxSeq.toNat

namespace Touches

/-- Every row of the main context runs an operation that stays within the row's allowance. -/
theorem exists_exec_eq_runMain (i : Instr) (hi : i.isIrqRow = false) :
    ∃ x : Op Value, (∀ s, exec i s = runMain i x s) ∧ Touches (rowAllowance i) x := by
  cases i with
  | irq => cases hi
  | rxpath => cases hi
  | txpath => cases hi
  | srd a => exact ⟨_, fun _ => rfl, bind (require _ _) fun _ => bind (mainRead _) fun _ => pure _⟩
  | swr a v => exact ⟨_, fun _ => rfl, bind (require _ _) fun _ => bind (mainWrite _ _) fun _ => pure _⟩
  | lrd a => exact ⟨_, fun _ => rfl, bind (require _ _) fun _ => bind (mainRead _) fun _ => pure _⟩
  | lwr a v => exact ⟨_, fun _ => rfl, bind (require _ _) fun _ => bind (mainWrite _ _) fun _ => pure _⟩
  | reset => exact ⟨_, fun _ => rfl, opReset⟩
  | init => exact ⟨_, fun _ => rfl, opInit⟩
  | setChannel n =>
    exact ⟨_, fun _ => rfl, bind requireReady fun _ => bind (require _ _) fun _ => bind (view _) fun _ =>
      bind (tuneChannel _ _) fun _ => pure _⟩
  | setPan v =>
    exact ⟨_, fun _ => rfl, bind requireReady fun _ => bind (view _) fun _ => bind (wrPair _ _ _) fun _ =>
      bind (mainUpdate fun s => .setCfg s _) fun _ => pure _⟩
  | getPan =>
    exact ⟨_, fun _ => rfl, bind requireReady fun _ => bind (view _) fun _ => bind (rdPair _ _) fun _ => pure _⟩
  | setShortAddress a =>
    exact ⟨_, fun _ => rfl, bind requireReady fun _ => bind (view _) fun _ => bind (wrPair _ _ _) fun _ =>
      bind (mainUpdate fun s => .setCfg s _) fun _ => pure _⟩
  | getShortAddress =>
    exact ⟨_, fun _ => rfl, bind requireReady fun _ => bind (view _) fun _ => bind (rdPair _ _) fun _ => pure _⟩
  | setPromiscuous b =>
    exact ⟨_, fun _ => rfl, bind requireReady fun _ => bind (view _) fun _ => bind (mainRead _) fun _ =>
      bind (mainWrite _ _) fun _ => bind (mainUpdate fun s => .setCfg s _) fun _ => pure _⟩
  | setPanController b =>
    exact ⟨_, fun _ => rfl, bind requireReady fun _ => bind (view _) fun _ => bind (mainRead _) fun _ =>
      bind (mainWrite _ _) fun _ => bind (ite _ (unslot _) (pure _)) fun _ =>
      bind (mainUpdate fun s => .setCfg s _) fun _ => pure _⟩
  | rxDisable =>
    exact ⟨_, fun _ => rfl, bind requireReady fun _ => bind (view _) fun _ => bind (mainWrite _ _) fun _ => pure _⟩
  | rxEnable =>
    exact ⟨_, fun _ => rfl, bind requireReady fun _ => bind (view _) fun _ => bind (mainWrite _ _) fun _ => pure _⟩
  | send fcf payload => exact ⟨_, fun _ => rfl, bind (opSend _ _) fun _ => pure _⟩
  | send16Ack dest payload => exact ⟨_, fun _ => rfl, bind (opSend16Ack _ _) fun _ => pure _⟩
  | poll => exact ⟨_, fun _ => rfl, bind opPoll fun _ => pure _⟩
  | getRxRecord => exact ⟨_, fun _ => rfl, bind (elem (view _)) fun _ => pure _⟩
  | getTxRecord => exact ⟨_, fun _ => rfl, bind (elem (view _)) fun _ => pure _⟩
  | onReceive => exact ⟨_, fun _ => rfl, bind opOnReceive fun _ => pure _⟩
  | onTxComplete => exact ⟨_, fun _ => rfl, bind opOnTxComplete fun _ => pure _⟩
  | m07 p1 => exact ⟨_, fun _ => rfl, bind (opM07 _) fun _ => pure _⟩
  | m01a => exact ⟨_, fun _ => rfl, bind opM01A fun _ => pure _⟩
  | m13 p1 => exact ⟨_, fun _ => rfl, bind (opM13 _) fun _ => pure _⟩
  | m08 p2 => exact ⟨_, fun _ => rfl, bind (opM08 _) fun _ => pure _⟩
  | m01d p1 p2 => exact ⟨_, fun _ => rfl, bind (opM01D _ _) fun _ => pure _⟩
  | m02 p2 => exact ⟨_, fun _ => rfl, bind (opM02 _) fun _ => pure _⟩
  | m0a p1 => exact ⟨_, fun _ => rfl, bind (opM0A _) fun _ => pure _⟩
  | mxx t => exact ⟨_, fun _ => rfl, bind opMXX fun _ => pure _⟩
  | malformed => exact ⟨_, fun _ => rfl, bind opMalformed fun _ => pure _⟩

end Touches

/-! ## Whole rows -/

/-- A main-context row that ends in a next state ended its operation well or with a code (60 R190). -/
theorem runMain_next {i : Instr} {x : Op Value} {s t : State} {P : State → Prop}
    (hx : Triple (fun u => u = s.setMainCtl (.running i 0)) x (fun _ => P) (OnCode P)) (h : runMain i x s = .next t) :
    s.mainCtl = .idle ∧ ∃ u c v, P u ∧ t = u.finish c v := by
  have hx := hx _ rfl
  unfold runMain at h
  cases hm : s.mainCtl with
  | running op k => rw [hm] at h; cases h
  | idle =>
    rw [hm] at h
    simp only at h
    cases hxs : x (s.setMainCtl (.running i 0)) with
    | ok v u => rw [hxs] at h hx; cases h; exact ⟨rfl, u, _, _, hx, rfl⟩
    | error e u =>
      rw [hxs] at h hx
      cases e with
      | code c => cases h; exact ⟨rfl, u, _, _, hx c rfl, rfl⟩
      | fault f => cases h

theorem runMain_within {i : Instr} {w : Allowance} {x : Op Value} (hx : Touches w x) {s t : State}
    (h : runMain i x s = .next t) : Within w s t := by
  obtain ⟨-, u, c, v, hu, rfl⟩ := runMain_next (P := Within w (s.setMainCtl (.running i 0)))
    (fun u hu => hu ▸ hx (s.setMainCtl (.running i 0))) h
  have hdone := ((Within.setMainCtl s _).none_trans hu).trans (.finish u c v)
  rwa [Allowance.plus_none] at hdone

/-- A sequence of the interrupt context on its own changes what a run may change (60 R205). -/
theorem runIrqPath_frame {i : Instr} {x : Op Unit} (hf : ∀ s0, Stays (RunFrame s0) x) (hg : ∀ s0, Stays (Grows s0) x)
    {s t : State} (h : runIrqPath i x s = .next t) : IrqFrame s t ∧ Grows s t := by
  have done : ∀ u, RunFrame s u → Grows s u → s.irqCtl = .idle →
      IrqFrame s (u.setIrqCtl .idle) ∧ Grows s (u.setIrqCtl .idle) := by
    rintro u ⟨c, hu⟩ hgu hs
    refine ⟨?_, hgu.trans (SameRecords.grows {})⟩
    unfold IrqFrame State.setIrqCtl at *
    rw [hu, ← hs]
  unfold runIrqPath at h
  cases hc : s.irqCtl with
  | running op k => rw [hc] at h; cases h
  | idle =>
    rw [hc] at h
    have hf := hf s (s.setIrqCtl (.running i 0)) ⟨.running i 0, rfl⟩
    have hg := hg s (s.setIrqCtl (.running i 0)) (SameRecords.grows {})
    simp only at h
    cases hxs : x (s.setIrqCtl (.running i 0)) with
    | ok a u => rw [hxs] at h hf hg; cases h; exact done u hf hg hc
    | error e u =>
      rw [hxs] at h hf hg
      cases e with
      | code c => cases h; exact done u (hf c rfl) (hg c rfl) hc
      | fault f => cases h

theorem execIrq_frame {s t : State} (h : execIrq s = .next t) : IrqFrame s t ∧ Grows s t := by
  unfold execIrq at h
  split at h
  · next hc =>
    have hf := irqRun_frame hc
    have hg := irqRun_grows s s (.refl s)
    cases hx : irqRun s with
    | ok a u => rw [hx] at h hf hg; cases h; exact ⟨hf, hg⟩
    | error e u =>
      rw [hx] at h hf
      obtain ⟨f, rfl⟩ := hf
      cases h
  · cases h

theorem exec_irqRow_frame {i : Instr} (hi : i.isIrqRow = true) {s t : State} (h : exec i s = .next t) :
    IrqFrame s t ∧ Grows s t := by
  cases i with
  | irq => exact execIrq_frame h
  | rxpath => exact runIrqPath_frame (fun _ => opRxpath_stays) opRxpath_grows h
  | txpath => exact runIrqPath_frame (fun _ => opTxpath_stays) opTxpath_grows h
  | _ => cases hi

/-- Whatever interrupts it, a row stays within its allowance. -/
theorem exec_within {i : Instr} {s t : State} (h : exec i s = .next t) : Within (rowAllowance i) s t := by
  cases hi : i.isIrqRow with
  | true =>
    obtain ⟨hf, hg⟩ := exec_irqRow_frame hi h
    exact .of_irqFrame hf hg _
  | false =>
    obtain ⟨x, he, hx⟩ := Touches.exists_exec_eq_runMain i hi
    exact runMain_within hx (he s ▸ h)

/-- Settles O48: the fields of `Within` at the row's allowance; an interrupt row changes only what its context
writes. -/
theorem rowFrame : Obligations.RowFrame := by
  intro i s t h
  have hw := exec_within h
  have counter {b : Bool} {x y : Byte} (hb : b = false) (hk : ∃ k ≤ b.toNat, y = x + BitVec.ofNat 8 k) : y = x := by
    obtain ⟨k, hk, rfl⟩ := hk
    subst hb
    obtain rfl := Nat.le_zero.1 hk
    exact BitVec.add_zero x
  refine ⟨hw.grows.par, hw.hostq, hw.irqActive, hw.coordinator, fun hr => hw.rst (decide_eq_false hr),
    fun hr hn => hw.drv (by simp [rowAllowance, hr, hn]), hw.cfg, fun htx => ⟨counter htx hw.txSeq, hw.mask htx⟩,
    fun hls => counter hls hw.localSeq, hw.dev, hw.out, fun hp hr => hw.dec (by simp [rowAllowance, hp, hr]),
    fun hi => ?_⟩
  obtain ⟨hf, -⟩ := exec_irqRow_frame hi h
  exact ⟨by rw [hf], by rw [hf]⟩

/-- Settles O50: a row's allowance for either counter is at most one advance. -/
theorem countersAdvanceByOne : Obligations.CountersAdvanceByOne := by
  intro i s t h
  have hw := exec_within h
  have one {b : Bool} {x y : Byte} (hk : ∃ k ≤ b.toNat, y = x + BitVec.ofNat 8 k) : y = x ∨ y = x + 1 := by
    obtain ⟨k, hk, rfl⟩ := hk
    have hk : k ≤ 1 := hk.trans (Bool.toNat_le b)
    interval_cases k
    · exact .inl (BitVec.add_zero x)
    · exact .inr rfl
  exact ⟨one hw.localSeq, one hw.txSeq⟩

/-! ## What a step does before its row -/

/-- `u` is `s` when its next row is to run or it has none: an operation that was only selected is taken off its control
state, a host command off the queue, and the environment has moved. -/
structure Readied (s u : State) : Prop where
  frame : u = { s with mainCtl := u.mainCtl, irqCtl := u.irqCtl, env := u.env, hostq := u.hostq, result := u.result }
  memory : Env.wf s.env → Env.wf u.env := by exact id
  mainCtl : s.mainCtl.fresh = true → u.mainCtl.fresh = true := by exact id
  irqCtl : s.irqCtl.fresh = true → u.irqCtl.fresh = true := by exact id

namespace Readied

theorem trans {s t u : State} (h : Readied s t) (k : Readied t u) : Readied s u where
  frame := by rw [k.frame, h.frame]
  memory := k.memory ∘ h.memory
  mainCtl := k.mainCtl ∘ h.mainCtl
  irqCtl := k.irqCtl ∘ h.irqCtl

theorem refl (s : State) : Readied s s where frame := rfl
theorem setHostq (s : State) (q : List (List Byte)) : Readied s (s.setHostq q) where frame := rfl
theorem setAgenda (s : State) (as : List Act) : Readied s (s.setAgenda as) where frame := rfl
theorem bumpDraws (s : State) : Readied s s.bumpDraws where frame := rfl
theorem badCommand (s : State) : Readied s (badCommand s) where frame := rfl
theorem envMove (s : State) (m : EnvMove) : Readied s (s.envMove m) where frame := rfl; memory := Env.apply_wf _ m
theorem mainIdle (s : State) : Readied s (s.setMainCtl .idle) where frame := rfl; mainCtl _ := rfl
theorem irqIdle (s : State) : Readied s (s.setIrqCtl .idle) where frame := rfl; irqCtl _ := rfl

end Readied

/-- Between `s` and `t` lies at most one row, run from a readied state. -/
def AtMostOneRow (s t : State) : Prop := ∃ u, Readied s u ∧ (t = u ∨ ∃ i, exec i u = .next t)

theorem AtMostOneRow.after {s u t : State} (h : Readied s u) : AtMostOneRow u t → AtMostOneRow s t
  | ⟨v, hv, k⟩ => ⟨v, h.trans hv, k⟩

theorem AtMostOneRow.row {i : Instr} {s t : State} (h : exec i s = .next t) : AtMostOneRow s t :=
  ⟨s, .refl s, .inr ⟨i, h⟩⟩

theorem AtMostOneRow.none {s t : State} (h : Readied s t) : AtMostOneRow s t := ⟨t, h, .inl rfl⟩

theorem takeCommand_cases {bytes : List Byte} {s t : State} (h : takeCommand bytes s = .next t) : AtMostOneRow s t := by
  unfold takeCommand at h
  split at h
  · exact .row h
  · cases h; exact .none (.badCommand s)

theorem mainTurn_cases {s t : State} (h : mainTurn s = .next t) : AtMostOneRow s t := by
  unfold mainTurn at h
  split at h
  · exact .after (.mainIdle s) (.row h)
  · cases h
  · split at h
    · cases h; exact .none (.refl s)
    · exact .after (.setHostq s _) (takeCommand_cases h)

theorem idleTurn_cases {s t : State} (h : idleTurn s = .next t) : AtMostOneRow s t := by
  unfold idleTurn at h
  split at h
  · exact .after (.setAgenda s _) (mainTurn_cases h)
  · cases h; exact .none ((Readied.setAgenda s _).trans (.envMove _ _))
  · split at h
    · exact .after (.setAgenda s _) (.row h)
    · cases h; exact .none (.setAgenda s _)
  · split at h
    · split at h
      · exact .after (.bumpDraws s) (.row h)
      · exact .after (.bumpDraws s) (mainTurn_cases h)
    · exact mainTurn_cases h

/-- A step runs at most one row (notes/assumptions/1.md). -/
theorem step_cases {s t : State} (h : step s = .next t) : AtMostOneRow s t := by
  unfold step turn at h
  split at h
  · exact .after (.irqIdle s) (.row h)
  · cases h
  · exact idleTurn_cases h

theorem Readied.grows {s u : State} (h : Readied s u) : Grows s u :=
  SameRecords.grows ⟨by rw [h.frame], by rw [h.frame], by rw [h.frame], by rw [h.frame], by rw [h.frame], h.memory⟩

theorem step_grows {s t : State} (h : step s = .next t) : Grows s t := by
  obtain ⟨u, hu, rfl | ⟨i, hi⟩⟩ := step_cases h
  · exact hu.grows
  · exact hu.grows.trans (exec_within hi).grows

/-- Settles O55: neither what a step readies nor its row lets a valid bit fall. -/
theorem validBitsStay : Obligations.ValidBitsStay := fun _ _ h => ⟨(step_grows h).rxValid, (step_grows h).txValid⟩

/-! ## The configuration part of the invariant -/

/-- The RadioConfig record names a channel that exists, and in READY it has an extended address (10 R37, 41 R130). -/
structure CfgOk (s : State) : Prop where
  par : s.par.wf = true
  channel : 11 ≤ s.cfg.channel.toNat ∧ s.cfg.channel.toNat ≤ 26
  eadr : s.drv = .ready → s.cfg.eadrValid = true

/-- The property looks at nothing but the parameters, the driver status and RadioConfig. -/
def CfgOnly (P : State → Prop) : Prop := ∀ s t, t.par = s.par → t.drv = s.drv → t.cfg = s.cfg → P s → P t

theorem CfgOk.cfgOnly : CfgOnly CfgOk := fun s t hp hd hc h =>
  ⟨hp ▸ h.par, hc ▸ h.channel, by rw [hd, hc]; exact h.eadr⟩

/-- The extended address is known (41 R130). -/
abbrev Addressed (s : State) : Prop := s.cfg.eadrValid = true ∧ CfgOk s

theorem Addressed.cfgOnly : CfgOnly Addressed := fun s t hp hd hc h => ⟨hc ▸ h.1, CfgOk.cfgOnly s t hp hd hc h.2⟩

/-- What writes neither the driver status nor RadioConfig keeps a property of them. -/
theorem Touches.keeps_cfgOnly {α : Type} {w : Allowance} {x : Op α} {P : State → Prop} (hx : Touches w x)
    (hP : CfgOnly P) (hd : w.drv = false := by rfl) (hc : w.cfg = false := by rfl) : Stays P x :=
  hx.stays fun s t h => hP s t h.grows.par (h.drv hd) (h.cfg hc)

theorem mainUpdate_triple {P Q R : State → Prop} (hP : CfgOnly P) {f : State → State} (hf : ∀ s, P s → Q (f s))
    (hR : ∀ s, P s → R s) : Triple P (mainUpdate f) (fun _ => Q) (OnCode R) :=
  Triple.bind ((Touches.boundary.keeps_cfgOnly hP).onCode hR) fun _ =>
    Triple.bind (Q := fun _ => P) (fun s hs => hP s _ rfl rfl rfl hs) fun _ => hf

theorem mainUpdate_keeps {P : State → Prop} (hP : CfgOnly P) {f : State → State} (hf : ∀ s, P s → P (f s)) :
    Stays P (mainUpdate f) := mainUpdate_triple hP hf fun _ => id

/-- A change of RadioConfig that names a channel that exists and forgets no extended address. -/
theorem CfgOk.setCfg {s : State} (h : CfgOk s) {c : RadioConfig} (hc : 11 ≤ c.channel.toNat ∧ c.channel.toNat ≤ 26)
    (he : s.cfg.eadrValid = true → c.eadrValid = true) : CfgOk (s.setCfg c) := ⟨h.par, hc, he ∘ h.eadr⟩

/-- A driver status other than READY asks nothing of RadioConfig. -/
theorem CfgOk.setDrv {s : State} (h : CfgOk s) {d : DrvStatus} (hd : d ≠ .ready) : CfgOk (s.setDrv d) :=
  ⟨h.par, h.channel, fun e => absurd e hd⟩

/-- An operation on a known extended address, as a part of one that may end before it is known. -/
theorem Stays.addressed {α : Type} {x : Op α} (hx : Stays Addressed x) :
    Triple Addressed x (fun _ => Addressed) (OnCode CfgOk) :=
  hx.onCode fun _ => And.right

theorem tuneChannel_keeps {P : State → Prop} (hP : CfgOnly P) (r : RegMap) {n : Byte}
    (hn : ∀ s, P s → P (s.setCfg { s.cfg with channel := n })) : Stays P (tuneChannel r n) :=
  have write l v := (Touches.mainWrite l v).keeps_cfgOnly hP
  Stays.bind (write _ _) fun _ => Stays.bind (write _ _) fun _ => Stays.bind (write _ _) fun _ => mainUpdate_keeps hP hn

theorem opReset_keeps : Stays CfgOk opReset :=
  have hP := CfgOk.cfgOnly
  Stays.bind (Stays.view _) fun _ =>
    Stays.bind ((Touches.mainUpdate fun s => .driveRst s false).keeps_cfgOnly hP) fun _ =>
    Stays.bind ((Touches.mainUpdate fun s => .pushPin s _).keeps_cfgOnly hP) fun _ =>
    Stays.bind ((Touches.mainUpdate fun s => .driveRst s true).keeps_cfgOnly hP) fun _ =>
    Stays.bind ((Touches.mainUpdate fun s => .pushPin s _).keeps_cfgOnly hP) fun _ =>
    Stays.bind (mainUpdate_keeps hP fun _ h => h.setDrv nofun) fun _ => Stays.pure _

theorem readEadr_keeps (b : Loc) (is : List (Fin 8)) : Stays CfgOk (readEadr b is) := by
  induction is with
  | nil => exact Stays.pure _
  | cons i is ih =>
    exact Stays.bind ((Touches.mainRead _).keeps_cfgOnly CfgOk.cfgOnly) fun _ =>
      Stays.bind (mainUpdate_keeps CfgOk.cfgOnly fun _ h => h.setCfg h.channel id) fun _ => ih

/-- Written or read, the extended address is known after `load_extended_address()` (41 R130). -/
theorem loadExtendedAddress_addressed (b : Loc) :
    Triple CfgOk (loadExtendedAddress b) (fun _ => Addressed) (OnCode CfgOk) := by
  refine Triple.bind (Q := fun c s => (c.eadrValid = true → s.cfg.eadrValid = true) ∧ CfgOk s)
    (fun s hs => ⟨id, hs⟩) fun c => ?_
  split
  · next hc =>
    exact ((Touches.writeEadr b 0 _).keeps_cfgOnly Addressed.cfgOnly).addressed.pre fun s h => ⟨h.1 hc, h.2⟩
  · exact Triple.bind ((readEadr_keeps b _).pre fun _ => And.right) fun _ =>
      mainUpdate_triple CfgOk.cfgOnly (fun s h => ⟨rfl, h.setCfg h.channel fun _ => rfl⟩) fun _ => id

theorem initConfigure_addressed (p : Params) :
    Triple CfgOk (initConfigure p) (fun _ => Addressed) (OnCode CfgOk) :=
  have hP := CfgOk.cfgOnly
  Triple.bind ((Touches.mainWrite _ _).keeps_cfgOnly hP) fun _ =>
    Triple.bind ((Touches.wrPair _ _ _).keeps_cfgOnly hP) fun _ =>
    Triple.bind (mainUpdate_keeps hP fun _ h => h.setCfg h.channel id) fun _ =>
    Triple.bind ((Touches.wrPair _ _ _).keeps_cfgOnly hP) fun _ =>
    Triple.bind (mainUpdate_keeps hP fun _ h => h.setCfg h.channel id) fun _ =>
    Triple.bind (loadExtendedAddress_addressed _) fun _ =>
    ((Touches.writeCal _).keeps_cfgOnly Addressed.cfgOnly).addressed

theorem Params.defaultChannel_ok {p : Params} (hp : p.wf = true) :
    11 ≤ p.defaultChannel.toNat ∧ p.defaultChannel.toNat ≤ 26 := by
  simp only [Params.wf, Bool.and_eq_true, decide_eq_true_eq] at hp
  obtain ⟨⟨⟨⟨⟨⟨-, hlow⟩, hhigh⟩, -⟩, -⟩, -⟩, -⟩ := hp
  exact ⟨hlow, hhigh⟩

/-- READY comes after the extended address (41 R112 line 11). -/
theorem initComplete_keeps {p : Params} (hp : p.wf = true) :
    Triple Addressed (initComplete p) (fun _ => CfgOk) (OnCode CfgOk) := by
  have tune := tuneChannel_keeps Addressed.cfgOnly p.reg (n := p.defaultChannel)
    fun s h => ⟨h.1, h.2.setCfg (Params.defaultChannel_ok hp) id⟩
  exact Triple.bind ((Touches.mainWrite _ _).keeps_cfgOnly Addressed.cfgOnly).addressed fun _ =>
    Triple.bind tune.addressed fun _ =>
    mainUpdate_triple Addressed.cfgOnly (fun s h => ⟨h.2.par, h.2.channel, fun _ => h.1⟩) fun _ => And.right

theorem hwFault_keeps {α : Type} (c : Code) : Stays CfgOk (hwFault c : Op α) :=
  Stays.bind (mainUpdate_keeps CfgOk.cfgOnly fun _ h => h.setDrv nofun) fun _ => Stays.raise c

theorem opInit_keeps : Stays CfgOk opInit := by
  have hP := CfgOk.cfgOnly
  refine Stays.bind (Stays.view _) fun _ => Stays.bind (Stays.require _ _) fun _ =>
    Triple.view_fact (φ := fun p => p.wf = true) (fun s h => h.par) fun p hp => ?_
  refine Stays.bind (mainUpdate_keeps hP fun s h => ⟨h.par, h.channel, nofun⟩) fun _ =>
    Stays.bind ((Touches.mainWrite _ _).keeps_cfgOnly hP) fun _ =>
    Stays.bind ((Touches.pollUntil _ _ _ _).keeps_cfgOnly hP) fun _ => Stays.ite _ ?_ (hwFault_keeps _)
  refine Triple.bind (initConfigure_addressed p) fun _ =>
    Triple.bind ((Touches.pollUntil _ _ _ _).keeps_cfgOnly Addressed.cfgOnly).addressed fun up => ?_
  split
  · exact Triple.bind (initComplete_keeps hp) fun _ => Stays.pure _
  · exact (hwFault_keeps _).pre fun _ => And.right

theorem runMain_keeps_cfgOk {i : Instr} {x : Op Value} {s t : State} (h : runMain i x s = .next t) (hx : Stays CfgOk x)
    (hs : CfgOk s) : CfgOk t := by
  obtain ⟨-, u, c, v, hu, rfl⟩ := runMain_next (P := CfgOk)
    (hx.pre fun u hu => hu ▸ CfgOk.cfgOnly s _ rfl rfl rfl hs) h
  exact CfgOk.cfgOnly u _ rfl rfl rfl hu

/-- Every row keeps the configuration part: those that may write it one by one, the others by their allowance. -/
theorem exec_keeps_cfgOk {i : Instr} {s t : State} (h : exec i s = .next t) : CfgOk s → CfgOk t := by
  have hP := CfgOk.cfgOnly
  have ready := Touches.requireReady.keeps_cfgOnly hP
  have read l := (Touches.mainRead l).keeps_cfgOnly hP
  have write l v := (Touches.mainWrite l v).keeps_cfgOnly hP
  cases i with
  | reset => exact runMain_keeps_cfgOk h opReset_keeps
  | init => exact runMain_keeps_cfgOk h opInit_keeps
  | setChannel n =>
    refine runMain_keeps_cfgOk h (Stays.bind ready fun _ => Triple.require_fact (fun _ => id) fun hn =>
      Stays.bind (Stays.view _) fun _ =>
      Stays.bind (tuneChannel_keeps hP _ fun _ h => h.setCfg ?_ id) fun _ => Stays.pure _)
    simpa only [channelOk, Bool.and_eq_true, decide_eq_true_eq] using hn
  | setPan v =>
    exact runMain_keeps_cfgOk h (Stays.bind ready fun _ => Stays.bind (Stays.view _) fun _ =>
      Stays.bind ((Touches.wrPair _ _ _).keeps_cfgOnly hP) fun _ =>
      Stays.bind (mainUpdate_keeps hP fun _ h => h.setCfg h.channel id) fun _ => Stays.pure _)
  | setShortAddress a =>
    exact runMain_keeps_cfgOk h (Stays.bind ready fun _ => Stays.bind (Stays.view _) fun _ =>
      Stays.bind ((Touches.wrPair _ _ _).keeps_cfgOnly hP) fun _ =>
      Stays.bind (mainUpdate_keeps hP fun _ h => h.setCfg h.channel id) fun _ => Stays.pure _)
  | setPromiscuous b =>
    exact runMain_keeps_cfgOk h (Stays.bind ready fun _ => Stays.bind (Stays.view _) fun _ =>
      Stays.bind (read _) fun _ =>
      Stays.bind (write _ _) fun _ =>
      Stays.bind (mainUpdate_keeps hP fun _ h => h.setCfg h.channel id) fun _ => Stays.pure _)
  | setPanController b =>
    exact runMain_keeps_cfgOk h (Stays.bind ready fun _ => Stays.bind (Stays.view _) fun _ =>
      Stays.bind (read _) fun _ =>
      Stays.bind (write _ _) fun _ =>
      Stays.bind (Stays.ite _ ((Touches.unslot _).keeps_cfgOnly hP) (Stays.pure _)) fun _ =>
      Stays.bind (mainUpdate_keeps hP fun _ h => h.setCfg h.channel id) fun _ => Stays.pure _)
  | _ =>
    have hw := exec_within h
    exact hP s t hw.grows.par (hw.drv rfl) (hw.cfg rfl)

/-! ## The invariant (10 R37) -/

/-- A row ends with its main context idle, or it is a row of the interrupt context. -/
theorem exec_mainCtl {i : Instr} {s t : State} (h : exec i s = .next t) :
    t.mainCtl = .idle ∨ t.mainCtl = s.mainCtl := by
  cases hi : i.isIrqRow with
  | true =>
    obtain ⟨hf, -⟩ := exec_irqRow_frame hi h
    exact .inr (by rw [hf])
  | false =>
    obtain ⟨x, he, hx⟩ := Touches.exists_exec_eq_runMain i hi
    obtain ⟨-, u, c, v, -, rfl⟩ := runMain_next (P := Within (rowAllowance i) (s.setMainCtl (.running i 0)))
      (fun u hu => hu ▸ hx _) (he s ▸ h)
    exact .inl rfl

theorem exec_keeps_inv {i : Instr} {s t : State} (hs : Inv s) (h : exec i s = .next t) : Inv t := by
  obtain ⟨hwf, hfits, hdev, hchannel, headr, hcoord, hrx, htx, ⟨hmask, hactive⟩, ⟨hmain, hirq⟩, hmem⟩ := hs
  have hw := exec_within h
  have hcfg := exec_keeps_cfgOk h ⟨hwf, hchannel, headr⟩
  have hrec := hw.grows.ok ⟨hfits, hrx, htx, hmem⟩
  refine ⟨hcfg.par, hrec.fits, ?_, hcfg.channel, hcfg.eadr, hw.coordinator.trans hcoord, hrec.rxEvent, hrec.txEvent,
    ⟨hw.unheld rfl hwf hmask, hw.irqActive.trans hactive⟩, ⟨?_, by rw [hw.irqCtl]; exact hirq⟩, hrec.memory⟩
  · rw [hw.identities, hw.grows.par, hdev]
  · obtain hidle | hsame := exec_mainCtl h
    · rw [hidle]; rfl
    · rw [hsame]; exact hmain

theorem Readied.keeps_inv {s u : State} (h : Readied s u) (hs : Inv s) : Inv u := by
  obtain ⟨hwf, hfits, hdev, hchannel, headr, hcoord, hrx, htx, hmask, ⟨hmain, hirq⟩, hmem⟩ := hs
  have hmem := h.memory hmem
  have hmain := h.mainCtl hmain
  have hirq := h.irqCtl hirq
  rw [h.frame]
  exact ⟨hwf, hfits, hdev, hchannel, headr, hcoord, hrx, htx, hmask, ⟨hmain, hirq⟩, hmem⟩

/-- Settles O57: readying keeps the invariant, and so does the row that the step runs. -/
theorem stepKeepsInv : Obligations.StepKeepsInv := by
  intro s t hs h
  obtain ⟨u, hu, rfl | ⟨i, hi⟩⟩ := step_cases h
  · exact hu.keeps_inv hs
  · exact exec_keeps_inv (hu.keeps_inv hs) hi

theorem powerOn_identities (p : Params) : (State.powerOn p).dev.map (·.identity) = p.whitelist := by
  simp [State.powerOn, Function.comp_def]

/-- 11, the model's reset value of `cfg.channel`, is a channel (log entry 6). -/
theorem powerOn_channel (p : Params) :
    11 ≤ (State.powerOn p).cfg.channel.toNat ∧ (State.powerOn p).cfg.channel.toNat ≤ 26 :=
  show 11 ≤ (11 : Byte).toNat ∧ (11 : Byte).toNat ≤ 26 by decide

theorem powerOn_inv {p : Params} (hp : p.wf = true) : Inv (State.powerOn p) :=
  ⟨hp, nofun, powerOn_identities p, powerOn_channel p, nofun, rfl, fun h => absurd rfl h,
    fun h => absurd rfl h, ⟨rfl, rfl⟩, ⟨rfl, rfl⟩, reset_memory_wf⟩

/-- Settles O56: no record is valid and no event pending at power-on, and the default configuration is well-formed. -/
theorem invAtPowerOn : Obligations.InvAtPowerOn := ⟨fun _ => powerOn_inv, powerOn_inv (by decide)⟩

/-- A device of the table at power-on stands at its place in the whitelist, offline and at sequence 0 (10 R36). -/
theorem powerOn_device {p : Params} {i : Nat} {d : DeviceRecord} (h : (State.powerOn p).dev[i]? = some d) :
    p.whitelist[i]? = some d.identity ∧ d.online = false ∧ d.sequence = 0 := by
  obtain ⟨id, hid, rfl⟩ := List.getElem?_map ▸ h |> Option.map_eq_some_iff.1
  exact ⟨hid, rfl, rfl⟩

/-- Settles O58: the extended address by whether one is configured, the device table by `powerOn_device`. -/
theorem powerOnValues : Obligations.PowerOnValues := by
  intro p
  refine ⟨rfl, rfl, rfl, rfl, rfl, rfl, rfl, rfl, rfl, rfl, rfl, fun e he => ?_, fun he => ?_, rfl, rfl, rfl, rfl, rfl,
    List.length_map _, fun i d => powerOn_device, rfl, rfl, rfl⟩
  · simp [State.powerOn, RadioConfig.powerOn, he]
  · simp [State.powerOn, RadioConfig.powerOn, he]

end Sys2Proof.Machine

/-! # What the rows store in the transceiver's memory (20 R57, R59, R66 law (1))

`KeepsBytes W s t` says once what a sequence of transactions does to memory: it changes no byte but those at the
locations `W`, as long as these are plain. A read changes none (`KeepsBytes.afterBusRead`), a write the one of its
location (`KeepsBytes.afterBusWrite`). It composes, so that each operation keeps it for the locations that its own writes
name: for the main context while nothing else moves (`StoresAlone`), and for an interrupt run while the environment does
not move (`StoresInRun`). That a pair of address registers reads back needs besides what a read of a kept byte answers
(`Env.read_kept`). -/

namespace Sys2Proof.Machine

/-! ## Bytes under a transaction -/

theorem Env.peek_read (r : RegMap) (e : Env) (l l' : Loc) : (e.read r l).2.peek l' = e.peek l' := by
  rw [Env.read_frame]; rfl

@[simp] theorem Env.peek_tickBus (e : Env) (l : Loc) : e.tickBus.peek l = e.peek l := rfl

theorem peek_afterBusRead (s : State) (c : Ctx) (l l' : Loc) : (s.afterBusRead c l).env.peek l' = s.env.peek l' := by
  rw [afterBusRead_env, Env.peek_tickBus, Env.peek_read]

theorem peek_afterBusWrite_same {s : State} {l : Loc} (c : Ctx) (v : Byte) (hl : PlainLoc s.par.reg l)
    (hr : l.inRange = true) : (s.afterBusWrite c l v).env.peek l = some v := by
  rw [afterBusWrite_env, Env.peek_tickBus, Env.peek_write _ _ _ _ _ hl.1 hl.2, Env.peek_poke_same _ _ _ hr]

theorem peek_afterBusWrite_other {s : State} {l l' : Loc} (c : Ctx) (v : Byte) (hl : PlainLoc s.par.reg l)
    (hne : l' ≠ l) : (s.afterBusWrite c l v).env.peek l' = s.env.peek l' := by
  rw [afterBusWrite_env, Env.peek_tickBus, Env.peek_write _ _ _ _ _ hl.1 hl.2, Env.peek_poke_other _ _ _ _ hne]

/-- `t` has the configuration of `s` and, where the locations `W` are plain, the bytes of `s` outside `W`. -/
structure KeepsBytes (W : List Loc) (s t : State) : Prop where
  par : t.par = s.par := by rfl
  peek : (∀ l ∈ W, PlainLoc s.par.reg l) → ∀ l, l ∉ W → t.env.peek l = s.env.peek l := by exact fun _ _ _ => rfl

namespace KeepsBytes

theorem trans {W : List Loc} {s t u : State} (h : KeepsBytes W s t) (k : KeepsBytes W t u) : KeepsBytes W s u where
  par := k.par.trans h.par
  peek hW l hl := (k.peek (h.par ▸ hW) l hl).trans (h.peek hW l hl)

theorem afterBusRead (W : List Loc) (s : State) (c : Ctx) (l : Loc) : KeepsBytes W s (s.afterBusRead c l) where
  peek _ l' _ := peek_afterBusRead s c l l'

theorem afterBusWrite {W : List Loc} {l : Loc} (hl : l ∈ W) (s : State) (c : Ctx) (v : Byte) :
    KeepsBytes W s (s.afterBusWrite c l v) where
  peek hW _ hl' := peek_afterBusWrite_other c v (hW l hl) fun h => hl' (h ▸ hl)

end KeepsBytes

/-! ## An interrupt run -/

/-- `t` comes after `s` in an interrupt run that the environment leaves alone, with no byte changed outside `W`. -/
structure StoresInRun (W : List Loc) (s t : State) : Prop extends KeepsBytes W s t where
  still : t.env.runMoves = []

namespace StoresInRun

theorem trans {W : List Loc} {s t u : State} (h : StoresInRun W s t) (k : KeepsBytes W t u)
    (hm : u.env.runMoves = t.env.runMoves) : StoresInRun W s u := ⟨h.toKeepsBytes.trans k, hm.trans h.still⟩

section
variable {W : List Loc} {s0 : State}

theorem irqElem {α : Type} {x : Op α} (hx : Stays (StoresInRun W s0) x) : Stays (StoresInRun W s0) (irqElem x) := by
  refine Stays.bind (fun s hs => ?_) fun _ => Stays.bind (Stays.update fun _ hs => hs.trans {} rfl) fun _ => hx
  unfold runBoundary
  rw [hs.still]
  exact hs

theorem irqUpdate {f : State → State} (hf : ∀ s, StoresInRun W s0 s → StoresInRun W s0 (f s)) :
    Stays (StoresInRun W s0) (Machine.irqElem (Op.update f)) := irqElem (Stays.update hf)

theorem irqRead (l : Loc) : Stays (StoresInRun W s0) (irqRead l) :=
  irqElem (Stays.busRead _ _ fun s hs => hs.trans (.afterBusRead W s _ l) (afterBusRead_runMoves s _ l))

theorem irqWrite {l : Loc} (hl : l ∈ W) (v : Byte) : Stays (StoresInRun W s0) (irqWrite l v) :=
  irqElem (Stays.busWrite _ _ _ fun s hs => hs.trans (.afterBusWrite hl s _ v) (afterBusWrite_runMoves s _ l v))

theorem readFifo (b : Loc) (off n : Nat) : Stays (StoresInRun W s0) (readFifo b off n) := by
  induction n generalizing off with
  | zero => exact Stays.pure _
  | succ n ih => exact Stays.bind (irqRead _) fun _ => Stays.bind (ih _) fun _ => Stays.pure _

theorem commitFrame (L : Byte) (fcf : Half) (h : RxShape) (hl : s0.par.reg.rxctl ∈ W) :
    Stays (StoresInRun W s0) (commitFrame s0.par L fcf h) :=
  Stays.bind (irqRead _) fun _ => Stays.bind (irqRead _) fun _ => Stays.bind (irqRead _) fun _ =>
    Stays.bind (readFifo _ _ _) fun _ => Stays.bind (readFifo _ _ _) fun _ => Stays.bind (readFifo _ _ _) fun _ =>
    Stays.bind (irqRead _) fun _ => Stays.bind (irqRead _) fun _ =>
    Stays.bind (irqUpdate fun _ hs => hs.trans {} rfl) fun _ => Stays.bind (irqWrite hl _) fun _ =>
    irqUpdate fun _ hs => hs.trans {} rfl

/-- The frame parser writes to the reception switch alone (42 R142, R143). -/
theorem opRxpath (hl : s0.par.reg.rxctl ∈ W) : Stays (StoresInRun W s0) opRxpath := by
  refine Triple.view_fact (φ := (· = s0.par)) (fun _ hs => hs.par) fun p hp => ?_
  subst hp
  refine Stays.bind (irqWrite hl _) fun _ => Stays.bind (irqRead _) fun L => Stays.bind (irqRead _) fun lo =>
    Stays.bind (irqRead _) fun hi => ?_
  split
  · exact irqWrite hl _
  · exact commitFrame _ _ _ hl

theorem opTxpath : Stays (StoresInRun W s0) opTxpath :=
  Stays.bind (Stays.view _) fun _ => Stays.bind (irqRead _) fun _ =>
    Stays.bind (irqUpdate fun _ hs => hs.trans {} rfl) fun _ => irqUpdate fun _ hs => hs.trans {} rfl

theorem opIrq (hl : s0.par.reg.rxctl ∈ W) : Stays (StoresInRun W s0) opIrq :=
  Stays.bind (Stays.view _) fun _ => Stays.bind (irqRead _) fun _ =>
    Stays.bind (Stays.ite _ (opRxpath hl) (Stays.pure _)) fun _ => Stays.ite _ opTxpath (Stays.pure _)

theorem irqRun (hl : s0.par.reg.rxctl ∈ W) : Stays (StoresInRun W s0) irqRun := by
  intro s hs
  have hrun := opIrq hl (enterIrq s) (hs.trans {} rfl)
  unfold Machine.irqRun
  cases hxs : Machine.opIrq (enterIrq s) with
  | ok a t => rw [hxs] at hrun; exact hrun.trans {} rfl
  | error e t =>
    rw [hxs] at hrun
    cases e with
    | code c => exact (hrun c rfl).trans {} rfl
    | fault f => exact nofun

end

end StoresInRun

/-- A sequence of the interrupt context that ends in a next state ended well or with a code. -/
theorem runIrqPath_next {i : Instr} {x : Op Unit} {s t : State} {P : State → Prop} (hx : Stays P x)
    (hs : P (s.setIrqCtl (.running i 0))) (h : runIrqPath i x s = .next t) : ∃ u, P u ∧ t = u.setIrqCtl .idle := by
  have hx := hx _ hs
  unfold runIrqPath at h
  cases hc : s.irqCtl with
  | running op k => rw [hc] at h; cases h
  | idle =>
    rw [hc] at h
    simp only at h
    cases hxs : x (s.setIrqCtl (.running i 0)) with
    | ok a u => rw [hxs] at h hx; cases h; exact ⟨u, hx, rfl⟩
    | error e u =>
      rw [hxs] at h hx
      cases e with
      | code c => cases h; exact ⟨u, hx c rfl, rfl⟩
      | fault f => cases h

theorem execIrq_next {s t : State} {P : State → Prop} (hx : Stays P irqRun) (hs : P s) (h : execIrq s = .next t) :
    P t := by
  have hx := hx s hs
  unfold execIrq at h
  split at h
  · cases hxs : irqRun s with
    | ok a u => rw [hxs] at h hx; cases h; exact hx
    | error e u =>
      rw [hxs] at h hx
      cases e with
      | code c => cases h; exact hx c rfl
      | fault f => cases h
  · cases h

theorem exec_irqRow_keepsBytes {i : Instr} (hi : i.isIrqRow = true) {s t : State} (hm : s.env.runMoves = [])
    (h : exec i s = .next t) : KeepsBytes [s.par.reg.rxctl] s t := by
  have hl : s.par.reg.rxctl ∈ [s.par.reg.rxctl] := List.mem_singleton_self _
  have start (c : Ctl) : StoresInRun [s.par.reg.rxctl] s (s.setIrqCtl c) := ⟨{}, hm⟩
  cases i with
  | irq => exact (execIrq_next (StoresInRun.irqRun hl) ⟨{}, hm⟩ h).toKeepsBytes
  | rxpath =>
    obtain ⟨u, hu, rfl⟩ := runIrqPath_next (StoresInRun.opRxpath hl) (start _) h
    exact hu.toKeepsBytes.trans {}
  | txpath =>
    obtain ⟨u, hu, rfl⟩ := runIrqPath_next StoresInRun.opTxpath (start _) h
    exact hu.toKeepsBytes.trans {}
  | _ => cases hi

/-- Settles O11: the one location an interrupt row writes to is the reception switch. -/
theorem interruptMemoryFrame : Obligations.InterruptMemoryFrame := by
  intro i s t hi hm hplain h l hl
  exact (exec_irqRow_keepsBytes hi hm h).peek (List.forall_mem_singleton.2 hplain) l (mt List.mem_singleton.1 hl)

/-! ## The main context, alone -/

/-- `t` comes after `s` with nothing but the main context moving, with no byte changed outside `W`. -/
structure StoresAlone (W : List Loc) (s t : State) : Prop extends KeepsBytes W s t where
  quiet : Quiet t

theorem locPlus_mem_locsAt (b : Loc) {off k n : Nat} (hk : off ≤ k) (hn : k < off + n) : locPlus b k ∈ locsAt b off n := by
  induction n generalizing off with
  | zero => omega
  | succ n ih =>
    rcases Nat.eq_or_lt_of_le hk with rfl | hlt
    · exact List.mem_cons_self
    · exact List.mem_cons_of_mem _ (ih hlt (by omega))

/-- The locations of `W` include the first `n` of the TX FIFO and the trigger: a frame of `n` bytes fits (41 R125). -/
def FrameFits (r : RegMap) (n : Nat) (W : List Loc) : Prop := r.txncon :: locsAt r.txfifo 0 n ⊆ W

namespace FrameFits

theorem trigger {r : RegMap} {n : Nat} {W : List Loc} (h : FrameFits r n W) : r.txncon ∈ W := h List.mem_cons_self

theorem byte {r : RegMap} {n k : Nat} {W : List Loc} (h : FrameFits r n W) (hk : k < n) : locPlus r.txfifo k ∈ W :=
  h (List.mem_cons_of_mem _ (locPlus_mem_locsAt _ (Nat.zero_le k) (by omega)))

theorem mono {r : RegMap} {m n : Nat} {W : List Loc} (h : FrameFits r n W) (hm : m ≤ n) : FrameFits r m W := by
  obtain ⟨k, rfl⟩ := Nat.exists_eq_add_of_le hm
  refine List.Subset.trans (List.cons_subset_cons _ ?_) h
  rw [locsAt_append]
  exact List.subset_append_left _ _

end FrameFits

namespace StoresAlone

theorem trans {W : List Loc} {s t u : State} (h : StoresAlone W s t) (k : KeepsBytes W t u) (hq : Quiet u) :
    StoresAlone W s u := ⟨h.toKeepsBytes.trans k, hq⟩

section
variable {W : List Loc} {s0 : State}

/-- The configuration an operation looks at is the one it started with. -/
theorem viewPar {α : Type} {k : Params → Op α} (hk : Stays (StoresAlone W s0) (k s0.par)) :
    Stays (StoresAlone W s0) (Op.view (·.par) >>= k) :=
  Triple.view_fact (φ := (· = s0.par)) (fun _ hs => hs.par) fun _ hp => hp ▸ hk

theorem elem {α : Type} {x : Op α} (hx : Stays (StoresAlone W s0) x) : Stays (StoresAlone W s0) (elem x) := by
  intro s hs
  rw [elem_quiet x hs.quiet.1 hs.quiet.2.1]
  exact hx _ (hs.trans {} hs.quiet)

/-- An update that touches neither the environment nor the configuration stores nothing. -/
theorem update {f : State → State} (hf : ∀ s, (f s).env = s.env ∧ (f s).par = s.par) :
    Stays (StoresAlone W s0) (Op.update f) := by
  refine Stays.update fun s hs => hs.trans ⟨(hf s).2, fun _ _ _ => by rw [(hf s).1]⟩ ?_
  unfold Quiet
  rw [(hf s).1]
  exact hs.quiet

theorem mainUpdate {f : State → State} (hf : ∀ s, (f s).env = s.env ∧ (f s).par = s.par) :
    Stays (StoresAlone W s0) (mainUpdate f) := elem (update hf)

theorem mainEmit (e : OutEvent) : Stays (StoresAlone W s0) (mainEmit e) := mainUpdate fun _ => ⟨rfl, rfl⟩

theorem mainRead (l : Loc) : Stays (StoresAlone W s0) (mainRead l) :=
  elem (Stays.busRead _ _ fun s hs => hs.trans (.afterBusRead W s _ l) (hs.quiet.read _ l))

theorem mainWrite {l : Loc} (hl : l ∈ W) (v : Byte) : Stays (StoresAlone W s0) (mainWrite l v) :=
  elem (Stays.busWrite _ _ _ fun s hs => hs.trans (.afterBusWrite hl s _ v) (hs.quiet.write _ l v))

theorem requireReady : Stays (StoresAlone W s0) requireReady := Stays.bind (Stays.view _) fun _ => Stays.require _ _

theorem wrPair {lo hi : Loc} (hlo : lo ∈ W) (hhi : hi ∈ W) (v : Half) : Stays (StoresAlone W s0) (wrPair lo hi v) :=
  Stays.bind (mainWrite hlo _) fun _ => mainWrite hhi _

theorem rdPair (lo hi : Loc) : Stays (StoresAlone W s0) (rdPair lo hi) :=
  Stays.bind (mainRead _) fun _ => Stays.bind (mainRead _) fun _ => Stays.pure _

theorem tuneChannel (n : Byte) (hc : s0.par.reg.channel ∈ W) (hr : s0.par.reg.rfctl ∈ W) :
    Stays (StoresAlone W s0) (tuneChannel s0.par.reg n) :=
  Stays.bind (mainWrite hc _) fun _ => Stays.bind (mainWrite hr _) fun _ => Stays.bind (mainWrite hr _) fun _ =>
    mainUpdate fun _ => ⟨rfl, rfl⟩

theorem unslot (ht : s0.par.reg.txmcr ∈ W) (ho : s0.par.reg.order ∈ W) :
    Stays (StoresAlone W s0) (unslot s0.par.reg) :=
  Stays.bind (mainRead _) fun _ => Stays.bind (mainWrite ht _) fun _ => mainWrite ho _

/-- An operation without a value of its own, as the body of a row. -/
theorem thenNone {x : Op Unit} (hx : Stays (StoresAlone W s0) x) :
    Stays (StoresAlone W s0) (do x; Pure.pure Value.none) := Stays.bind hx fun _ => Stays.pure _

/-! ## Frames and replies -/

theorem wrFifo {n off : Nat} (hW : FrameFits s0.par.reg n W) (vs : List Byte) (hn : off + vs.length ≤ n) :
    Stays (StoresAlone W s0) (wrFifo s0.par.reg.txfifo off vs) := by
  induction vs generalizing off with
  | nil => exact Stays.pure _
  | cons v vs ih =>
    rw [List.length_cons] at hn
    exact Stays.bind (mainWrite (hW.byte (by omega)) v) fun _ => ih (by omega)

theorem writeHeader {n : Nat} (hW : FrameFits s0.par.reg n W) (hn : 7 ≤ n) (hdr len : Nat) (fcf : Half) :
    Stays (StoresAlone W s0) (writeHeader s0.par.reg.txfifo hdr len fcf) :=
  Stays.bind (wrFifo hW (txPrefix hdr len fcf) (show 0 + 4 ≤ n by omega)) fun _ => Stays.bind (Stays.view _) fun q =>
    Stays.bind (wrFifo hW [q] (show 4 + 1 ≤ n by omega)) fun _ => Stays.bind (mainUpdate fun _ => ⟨rfl, rfl⟩) fun _ =>
    Stays.bind (Stays.view _) fun c => wrFifo hW (leBytes c.pan) (show 5 + 2 ≤ n by omega)

theorem writeFrame {h : HdrShape} (fcf : Half) {payload : List Byte}
    (hW : FrameFits s0.par.reg (2 + hdrLen h + payload.length) W) :
    Stays (StoresAlone W s0) (writeFrame s0.par h fcf payload) := by
  have hhdr : hdrLen h = 5 + h.dl + h.sl := rfl
  refine Stays.bind (writeHeader hW (by omega) _ _ _) fun _ => Stays.bind (Stays.view _) fun r =>
    Stays.bind (wrFifo hW _ ?_) fun _ => Stays.bind (Stays.view _) fun c => Stays.bind (wrFifo hW _ ?_) fun _ =>
    Stays.bind (wrFifo hW _ le_rfl) fun _ => Stays.bind (mainWrite hW.trigger _) fun _ =>
    elem (update fun _ => ⟨rfl, rfl⟩)
  · have := List.length_take_le h.dl r.src
    omega
  · have := srcAddr_length_le c h.sl
    omega

theorem opSend {fcf : Half} {payload : List Byte}
    (hW : ∀ h, hdrShape fcf = some h → FrameFits s0.par.reg (2 + hdrLen h + payload.length) W) :
    Stays (StoresAlone W s0) (opSend fcf payload) := by
  refine Stays.bind requireReady fun _ => viewPar ?_
  cases hs : hdrShape fcf with
  | none => exact Stays.raise _
  | some h =>
    refine Stays.bind (Stays.require _ _) fun _ => Stays.bind (elem (update fun _ => ⟨rfl, rfl⟩)) fun _ =>
      Stays.bind (Stays.view _) fun r => Stays.ite _ ?_ (writeFrame fcf (hW h hs))
    exact Stays.bind (elem (update fun _ => ⟨rfl, rfl⟩)) fun _ => Stays.raise _

theorem opSend16Ack {dest : Half} {payload : List Byte} (hW : FrameFits s0.par.reg (11 + payload.length) W) :
    Stays (StoresAlone W s0) (opSend16Ack dest payload) := by
  refine Stays.bind requireReady fun _ => Stays.bind (Stays.require _ _) fun _ => viewPar ?_
  exact Stays.bind (elem (update fun _ => ⟨rfl, rfl⟩)) fun _ => Stays.bind (writeHeader hW (by omega) _ _ _) fun _ =>
    Stays.bind (wrFifo hW (leBytes dest) (show 7 + 2 ≤ _ by omega)) fun _ => Stays.bind (Stays.view _) fun c =>
    Stays.bind (wrFifo hW (leBytes c.short) (show 9 + 2 ≤ _ by omega)) fun _ =>
    Stays.bind (wrFifo hW payload le_rfl) fun _ => Stays.bind (mainWrite hW.trigger _) fun _ =>
    elem (update fun _ => ⟨rfl, rfl⟩)

/-- A reply is a frame with two extended addresses (30 R83, R84): 23 bytes before its body. -/
theorem opReply {fcf : Half} {body : List Byte} (hf : hdrShape fcf = some ⟨8, 8⟩)
    (hW : FrameFits s0.par.reg (23 + body.length) W) : Stays (StoresAlone W s0) (opReply fcf body) := by
  refine Stays.bind (Stays.attempt (opSend fun h hh => ?_)) fun _ => Stays.ite _ (Stays.pure _) (mainEmit _)
  obtain rfl : (⟨8, 8⟩ : HdrShape) = h := Option.some.inj (hf.symm.trans hh)
  exact hW

theorem hdrShape_replyAck : hdrShape fcfReplyAck = some ⟨8, 8⟩ := by decide
theorem hdrShape_replyNoack : hdrShape fcfReplyNoack = some ⟨8, 8⟩ := by decide

theorem hdrShape_replyM07 (p : Params) : hdrShape (fcfReplyM07 p) = some ⟨8, 8⟩ := by
  unfold fcfReplyM07
  split
  · exact hdrShape_replyAck
  · exact hdrShape_replyNoack

/-! ## The decoder's actions and the pump -/

theorem mutateDev (f : DeviceRecord → DeviceRecord) : Stays (StoresAlone W s0) (mutateDev f) :=
  mainUpdate fun _ => ⟨rfl, rfl⟩

theorem nextLs : Stays (StoresAlone W s0) nextLs :=
  elem (Stays.bind (Stays.view _) fun _ => Stays.bind (update fun _ => ⟨rfl, rfl⟩) fun _ => Stays.pure _)

theorem forwardFrame (tag : Tag) : Stays (StoresAlone W s0) (forwardFrame tag) :=
  Stays.bind (Stays.view _) fun _ => mainEmit _

theorem opM07 (p1 : Byte) (hW : FrameFits s0.par.reg 30 W) : Stays (StoresAlone W s0) (opM07 p1) :=
  Stays.bind (mutateDev _) fun _ => Stays.bind (Stays.view _) fun p => opReply (hdrShape_replyM07 p) hW

theorem opM01A (hW : FrameFits s0.par.reg 27 W) : Stays (StoresAlone W s0) opM01A :=
  Stays.bind (mutateDev _) fun _ => opReply hdrShape_replyAck hW

theorem opM13 (p1 : Byte) (hW : FrameFits s0.par.reg 27 W) : Stays (StoresAlone W s0) (opM13 p1) :=
  Stays.bind (mutateDev _) fun _ => Stays.bind nextLs fun _ => opReply hdrShape_replyAck hW

theorem opM08 (p2 : Byte) (hW : FrameFits s0.par.reg 26 W) : Stays (StoresAlone W s0) (opM08 p2) :=
  Stays.bind (mutateDev _) fun _ => Stays.bind nextLs fun _ => Stays.bind (Stays.view _) fun _ =>
    opReply hdrShape_replyNoack hW

theorem opM01D (p1 p2 : Byte) (hW : FrameFits s0.par.reg 27 W) : Stays (StoresAlone W s0) (opM01D p1 p2) :=
  Stays.bind (mutateDev _) fun _ => Stays.bind nextLs fun _ => Stays.bind (opReply hdrShape_replyNoack hW) fun _ =>
    forwardFrame _

theorem opM02 (p2 : Byte) (hW : FrameFits s0.par.reg 27 W) : Stays (StoresAlone W s0) (opM02 p2) :=
  Stays.bind (mutateDev _) fun _ => Stays.bind nextLs fun _ => Stays.bind (Stays.view _) fun _ =>
    Stays.bind (opReply hdrShape_replyNoack hW) fun _ => forwardFrame _

theorem opMalformed : Stays (StoresAlone W s0) opMalformed :=
  Stays.bind (Stays.view _) fun _ => Stays.ite _ (forwardFrame _) (Stays.pure _)

/-- The longest reply, `M07`'s, is 30 bytes with its header. -/
theorem runAction (i : Instr) (hW : FrameFits s0.par.reg 30 W) : Stays (StoresAlone W s0) (runAction i) := by
  cases i with
  | m07 p1 => exact opM07 p1 hW
  | m01a => exact opM01A (hW.mono (by omega))
  | m13 p1 => exact opM13 p1 (hW.mono (by omega))
  | m08 p2 => exact opM08 p2 (hW.mono (by omega))
  | m01d p1 p2 => exact opM01D p1 p2 (hW.mono (by omega))
  | m02 p2 => exact opM02 p2 (hW.mono (by omega))
  | m0a p1 => exact mutateDev _
  | mxx t => exact forwardFrame _
  | malformed => exact opMalformed
  | _ => exact Stays.pure _

theorem opOnReceive (hW : FrameFits s0.par.reg 30 W) : Stays (StoresAlone W s0) opOnReceive :=
  Stays.bind (mainUpdate fun _ => ⟨rfl, rfl⟩) fun _ => Stays.bind (Stays.view _) fun _ => runAction _ hW

theorem opOnTxComplete : Stays (StoresAlone W s0) opOnTxComplete :=
  Stays.bind (elem (Stays.view _)) fun _ => mainEmit _

theorem testClearRx : Stays (StoresAlone W s0) testClearRx :=
  elem (Stays.bind (Stays.view _) fun _ => Stays.bind (update fun _ => ⟨rfl, rfl⟩) fun _ => Stays.pure _)

theorem testClearTx : Stays (StoresAlone W s0) testClearTx :=
  elem (Stays.bind (Stays.view _) fun _ => Stays.bind (update fun _ => ⟨rfl, rfl⟩) fun _ => Stays.pure _)

theorem opPoll (hW : FrameFits s0.par.reg 30 W) : Stays (StoresAlone W s0) opPoll :=
  Stays.bind testClearRx fun _ => Stays.bind (Stays.ite _ (opOnReceive hW) (Stays.pure _)) fun _ =>
    Stays.bind testClearTx fun _ => Stays.ite _ opOnTxComplete (Stays.pure _)

end

/-! ## The rows -/

theorem storedTo_send (s : State) {fcf : Half} (payload : List Byte) {h : HdrShape} (hs : hdrShape fcf = some h) :
    storedTo s (.send fcf payload) =
      s.par.reg.txncon :: locsAt s.par.reg.txfifo 0 (2 + hdrLen h + payload.length) := by
  unfold storedTo
  simp only [hs]

/-- Every row but `reset`, `init` and those of the interrupt context runs an operation that writes to the locations of
`storedTo` alone. -/
theorem exists_exec_eq_runMain (s0 : State) (i : Instr) (hreset : i ≠ .reset) (hinit : i ≠ .init)
    (hi : i.isIrqRow = false) :
    ∃ x : Op Value, (∀ s, exec i s = runMain i x s) ∧ Stays (StoresAlone (storedTo s0 i) s0) x := by
  have all (W : List Loc) : W ⊆ W := List.Subset.refl W
  have atHead {l : Loc} {W : List Loc} : l ∈ l :: W := List.mem_cons_self
  have atSecond {l l' : Loc} {W : List Loc} : l ∈ l' :: l :: W := List.mem_cons_of_mem _ List.mem_cons_self
  cases i with
  | reset => exact absurd rfl hreset
  | init => exact absurd rfl hinit
  | irq => cases hi
  | rxpath => cases hi
  | txpath => cases hi
  | srd a => exact ⟨_, fun _ => rfl, Stays.bind (Stays.require _ _) fun _ => Stays.bind (mainRead _) fun _ => Stays.pure _⟩
  | lrd a => exact ⟨_, fun _ => rfl, Stays.bind (Stays.require _ _) fun _ => Stays.bind (mainRead _) fun _ => Stays.pure _⟩
  | swr a v => exact ⟨_, fun _ => rfl, Stays.bind (Stays.require _ _) fun _ => thenNone (mainWrite atHead _)⟩
  | lwr a v => exact ⟨_, fun _ => rfl, Stays.bind (Stays.require _ _) fun _ => thenNone (mainWrite atHead _)⟩
  | setChannel n =>
    exact ⟨_, fun _ => rfl, Stays.bind requireReady fun _ => Stays.bind (Stays.require _ _) fun _ =>
      viewPar (thenNone (tuneChannel n atHead atSecond))⟩
  | setPan v =>
    exact ⟨_, fun _ => rfl, Stays.bind requireReady fun _ => viewPar (Stays.bind (wrPair atHead atSecond v) fun _ =>
      thenNone (mainUpdate fun _ => ⟨rfl, rfl⟩))⟩
  | setShortAddress a =>
    exact ⟨_, fun _ => rfl, Stays.bind requireReady fun _ => viewPar (Stays.bind (wrPair atHead atSecond a) fun _ =>
      thenNone (mainUpdate fun _ => ⟨rfl, rfl⟩))⟩
  | getPan =>
    exact ⟨_, fun _ => rfl, Stays.bind requireReady fun _ => Stays.bind (Stays.view _) fun _ =>
      Stays.bind (rdPair _ _) fun _ => Stays.pure _⟩
  | getShortAddress =>
    exact ⟨_, fun _ => rfl, Stays.bind requireReady fun _ => Stays.bind (Stays.view _) fun _ =>
      Stays.bind (rdPair _ _) fun _ => Stays.pure _⟩
  | setPromiscuous b =>
    exact ⟨_, fun _ => rfl, Stays.bind requireReady fun _ => viewPar (Stays.bind (mainRead _) fun _ =>
      Stays.bind (mainWrite atHead _) fun _ => thenNone (mainUpdate fun _ => ⟨rfl, rfl⟩))⟩
  | setPanController b =>
    refine ⟨_, fun _ => rfl, Stays.bind requireReady fun _ => viewPar (Stays.bind (mainRead _) fun _ =>
      Stays.bind (mainWrite atHead _) fun _ => Stays.bind ?_ fun _ => thenNone (mainUpdate fun _ => ⟨rfl, rfl⟩))⟩
    cases b
    · exact Stays.pure _
    · exact unslot atSecond (List.mem_cons_of_mem _ atSecond)
  | rxDisable => exact ⟨_, fun _ => rfl, Stays.bind requireReady fun _ => viewPar (thenNone (mainWrite atHead _))⟩
  | rxEnable => exact ⟨_, fun _ => rfl, Stays.bind requireReady fun _ => viewPar (thenNone (mainWrite atHead _))⟩
  | send fcf payload =>
    exact ⟨_, fun _ => rfl, thenNone (opSend fun h hs => storedTo_send s0 payload hs ▸ all _)⟩
  | send16Ack dest payload => exact ⟨_, fun _ => rfl, thenNone (opSend16Ack (all _))⟩
  | poll => exact ⟨_, fun _ => rfl, thenNone (opPoll (all _))⟩
  | getRxRecord => exact ⟨_, fun _ => rfl, Stays.bind (elem (Stays.view _)) fun _ => Stays.pure _⟩
  | getTxRecord => exact ⟨_, fun _ => rfl, Stays.bind (elem (Stays.view _)) fun _ => Stays.pure _⟩
  | onReceive => exact ⟨_, fun _ => rfl, thenNone (opOnReceive (all _))⟩
  | onTxComplete => exact ⟨_, fun _ => rfl, thenNone opOnTxComplete⟩
  | m07 p1 => exact ⟨_, fun _ => rfl, thenNone (opM07 p1 (all _))⟩
  | m01a => exact ⟨_, fun _ => rfl, thenNone (opM01A (all _))⟩
  | m13 p1 => exact ⟨_, fun _ => rfl, thenNone (opM13 p1 (all _))⟩
  | m08 p2 => exact ⟨_, fun _ => rfl, thenNone (opM08 p2 (all _))⟩
  | m01d p1 p2 => exact ⟨_, fun _ => rfl, thenNone (opM01D p1 p2 (all _))⟩
  | m02 p2 => exact ⟨_, fun _ => rfl, thenNone (opM02 p2 (all _))⟩
  | m0a p1 => exact ⟨_, fun _ => rfl, thenNone (mutateDev _)⟩
  | mxx t => exact ⟨_, fun _ => rfl, thenNone (forwardFrame _)⟩
  | malformed => exact ⟨_, fun _ => rfl, thenNone opMalformed⟩

end StoresAlone

/-- Settles O10: a row alone and at rest writes to the locations of `storedTo` alone. -/
theorem memoryFrame : Obligations.MemoryFrame := by
  intro i s t hrest hreset hinit hi hplain h l hl
  obtain ⟨x, he, hx⟩ := StoresAlone.exists_exec_eq_runMain s i hreset hinit hi
  obtain ⟨-, u, c, v, hu, rfl⟩ := runMain_next (P := StoresAlone (storedTo s i) s)
    (fun u hu => hu ▸ hx (s.setMainCtl (.running i 0)) ⟨{}, hrest.1⟩) (he s ▸ h)
  exact hu.peek hplain l hl

/-! ## Address pairs -/

@[simp] theorem writes_cfg (c : Ctx) (ws : List (Loc × Byte)) (s : State) : (s.writes c ws).cfg = s.cfg := by
  rw [writes_frame]

@[simp] theorem writes_drv (c : Ctx) (ws : List (Loc × Byte)) (s : State) : (s.writes c ws).drv = s.drv := by
  rw [writes_frame]

/-- A setter of an address pair, in service: the two writes, low byte first, then the shadow (41 R116, R118). -/
theorem Runs.setPair {s : State} (hs : InService s) (lo hi : RegMap → Loc) (hlo : (lo s.par.reg).inRange = true)
    (hhi : (hi s.par.reg).inRange = true) (v : Half) (f : RadioConfig → RadioConfig) :
    Runs (do
        Machine.requireReady
        let p ← Op.view (·.par)
        Machine.wrPair (lo p.reg) (hi p.reg) v
        Machine.mainUpdate fun s => s.setCfg (f s.cfg)
        Pure.pure Value.none)
      s .none ((s.writes .main (pairAt (lo s.par.reg) (hi s.par.reg) v)).setCfg (f s.cfg)) := by
  obtain ⟨⟨hq, -, -⟩, hready⟩ := hs
  refine Runs.bind (Runs.requireReady hready) (Runs.bind (Runs.view fun _ => rfl)
    (Runs.bind (Runs.wrPair v hq hlo hhi) ?_))
  rw [← writes_cfg .main (pairAt (lo s.par.reg) (hi s.par.reg) v) s]
  exact Runs.bind (Runs.mainUpdate (hq.writes _ _) fun _ => rfl) (Runs.pure _ _)

/-- What a getter makes of the two bytes it read, low byte first (41 R117, R119). -/
def pairValue (bytes : List Byte) : Value := .half (half (byteAt bytes 1) (byteAt bytes 0))

/-- A getter of an address pair, in service: two reads, low byte first (41 R117, R119). -/
theorem Runs.getPair {s : State} (hs : InService s) (lo hi : RegMap → Loc) (hlo : (lo s.par.reg).inRange = true)
    (hhi : (hi s.par.reg).inRange = true) :
    Runs (do
        Machine.requireReady
        let p ← Op.view (·.par)
        let v ← Machine.rdPair (lo p.reg) (hi p.reg)
        Pure.pure (Value.half v))
      s (pairValue (s.reads .main [lo s.par.reg, hi s.par.reg]).1) (s.reads .main [lo s.par.reg, hi s.par.reg]).2 := by
  obtain ⟨⟨hq, -, -⟩, hready⟩ := hs
  exact Runs.bind (Runs.requireReady hready) (Runs.bind (Runs.view fun _ => rfl)
    (Runs.bind (Runs.rdPair hq hlo hhi) (Runs.pure _ _)))

theorem exec_setPan {s : State} (h : InService s) (v : Half) :
    exec (.setPan v) s = .next (State.finish
      ((s.writes .main (pairAt s.par.reg.panl s.par.reg.panh v)).setCfg { s.cfg with pan := v }) .ok .none) := by
  have ⟨⟨_, hidle, hwf⟩, _⟩ := h
  obtain ⟨hreg, -⟩ := RegMap.ranges (Params.reg_wf hwf)
  exact runMain_runs hidle (Runs.setPair h RegMap.panl RegMap.panh (hreg _ (by simp)) (hreg _ (by simp)) v
    fun c => { c with pan := v })

theorem exec_setShortAddress {s : State} (h : InService s) (v : Half) :
    exec (.setShortAddress v) s = .next (State.finish
      ((s.writes .main (pairAt s.par.reg.sadrl s.par.reg.sadrh v)).setCfg { s.cfg with short := v }) .ok .none) := by
  have ⟨⟨_, hidle, hwf⟩, _⟩ := h
  obtain ⟨hreg, -⟩ := RegMap.ranges (Params.reg_wf hwf)
  exact runMain_runs hidle (Runs.setPair h RegMap.sadrl RegMap.sadrh (hreg _ (by simp)) (hreg _ (by simp)) v
    fun c => { c with short := v })

theorem exec_getPan {s : State} (h : InService s) :
    exec .getPan s = .next ((s.reads .main [s.par.reg.panl, s.par.reg.panh]).2.finish .ok
      (pairValue (s.reads .main [s.par.reg.panl, s.par.reg.panh]).1)) := by
  have ⟨⟨_, hidle, hwf⟩, _⟩ := h
  obtain ⟨hreg, -⟩ := RegMap.ranges (Params.reg_wf hwf)
  exact runMain_runs hidle (Runs.getPair h RegMap.panl RegMap.panh (hreg _ (by simp)) (hreg _ (by simp)))

theorem exec_getShortAddress {s : State} (h : InService s) :
    exec .getShortAddress s = .next ((s.reads .main [s.par.reg.sadrl, s.par.reg.sadrh]).2.finish .ok
      (pairValue (s.reads .main [s.par.reg.sadrl, s.par.reg.sadrh]).1)) := by
  have ⟨⟨_, hidle, hwf⟩, _⟩ := h
  obtain ⟨hreg, -⟩ := RegMap.ranges (Params.reg_wf hwf)
  exact runMain_runs hidle (Runs.getPair h RegMap.sadrl RegMap.sadrh (hreg _ (by simp)) (hreg _ (by simp)))

theorem half_hi_lo (v : Half) : half v.hi v.lo = v := by
  refine BitVec.eq_of_getLsbD_eq fun i hi => ?_
  simp only [half, Half.hi, Half.lo, BitVec.getLsbD_append, BitVec.getLsbD_extractLsb']
  split
  · next h => simp [h]
  · next h => simp [show i - 8 < 8 by omega, show 8 + (i - 8) = i by omega]

/-- A location that keeps its byte, `A_INTSTAT` apart, is read as the byte known of it, and the read changes nothing
(20 R66 law (1)). -/
theorem Env.read_kept {r : RegMap} {e : Env} {l : Loc} {v : Byte} (hscripts : e.scripts = []) (hl : l ≠ r.intstat)
    (hkeeps : keepsByte r l = true) (hv : e.peek l = some v) : e.read r l = (v, e) := by
  have hanswer : e.answer r l = (v, e) := by simp [Env.answer, hscripts, takeScript, hl, Env.fixed, hkeeps, hv]
  simp [Env.read, hanswer, Env.afterRead, hl]

/-- A register of an address pair that can be read back: a plain location in range that keeps its byte. -/
structure ReadsBack (r : RegMap) (l : Loc) : Prop where
  plain : PlainLoc r l
  notIntstat : l ≠ r.intstat
  inRange : l.inRange = true
  keeps : keepsByte r l = true

theorem RegMap.addressRegister_readsBack {r : RegMap} (hr : r.wf = true) {l : Loc}
    (hl : l ∈ [r.panl, r.panh, r.sadrl, r.sadrh]) (hp : PlainLoc r l ∧ l ≠ r.intstat) : ReadsBack r l where
  plain := hp.1
  notIntstat := hp.2
  inRange := by
    refine (RegMap.ranges hr).1 l ?_
    simp only [List.mem_cons, List.not_mem_nil] at hl ⊢
    tauto
  keeps := by
    simp only [List.mem_cons, List.not_mem_nil] at hl
    simp only [keepsByte, Bool.or_eq_true, decide_eq_true_eq, List.mem_cons, List.not_mem_nil]
    tauto

@[simp] theorem afterBusWrite_scripts (s : State) (c : Ctx) (l : Loc) (v : Byte) :
    (s.afterBusWrite c l v).env.scripts = s.env.scripts := by
  rw [afterBusWrite_env]; unfold Env.tickBus; rw [Env.write_frame s.par.reg s.env l v]

/-- A pair and a shadow written, as the end of an operation, keep the configuration. -/
theorem finish_writes_par (s : State) (ws : List (Loc × Byte)) (c : RadioConfig) (e : Code) (v : Value) :
    (((s.writes .main ws).setCfg c).finish e v).par = s.par := writes_par .main ws s

theorem InService.finish_writes {s : State} (h : InService s) (ws : List (Loc × Byte)) (c : RadioConfig) (e : Code)
    (v : Value) : InService (((s.writes .main ws).setCfg c).finish e v) := by
  obtain ⟨⟨hq, -, hwf⟩, hready⟩ := h
  refine ⟨⟨hq.writes .main ws, rfl, ?_⟩, (writes_drv .main ws s).trans hready⟩
  rwa [finish_writes_par]

/-- Reading a pair when both bytes are known gives them. -/
theorem reads_pair {t : State} {lo hi : Loc} {a b : Byte} (hscripts : t.env.scripts = [])
    (hlo : ReadsBack t.par.reg lo) (hhi : ReadsBack t.par.reg hi) (ha : t.env.peek lo = some a)
    (hb : t.env.peek hi = some b) : (t.reads .main [lo, hi]).1 = [a, b] := by
  have readLo : t.env.read t.par.reg lo = (a, t.env) := Env.read_kept hscripts hlo.notIntstat hlo.keeps ha
  have readHi : t.env.tickBus.read t.par.reg hi = (b, t.env.tickBus) :=
    Env.read_kept hscripts hhi.notIntstat hhi.keeps hb
  simp only [State.reads, afterBusRead_env, afterBusRead_par, readLo, readHi]

/-- Reading a pair after it was written gives the value written. -/
theorem pairValue_reads_writes {s : State} {lo hi : Loc} (v : Half) (c : RadioConfig) (hscripts : s.env.scripts = [])
    (hne : lo ≠ hi) (hlo : ReadsBack s.par.reg lo) (hhi : ReadsBack s.par.reg hi) :
    pairValue ((((s.writes .main (pairAt lo hi v)).setCfg c).finish .ok .none).reads .main [lo, hi]).1 = .half v := by
  have hvlo : (s.writes .main (pairAt lo hi v)).env.peek lo = some v.lo :=
    (peek_afterBusWrite_other (s := s.afterBusWrite .main lo v.lo) .main v.hi hhi.plain hne).trans
      (peek_afterBusWrite_same .main v.lo hlo.plain hlo.inRange)
  have hvhi : (s.writes .main (pairAt lo hi v)).env.peek hi = some v.hi :=
    peek_afterBusWrite_same (s := s.afterBusWrite .main lo v.lo) .main v.hi hhi.plain hhi.inRange
  have hs : (s.writes .main (pairAt lo hi v)).env.scripts = [] := by
    simpa only [pairAt, State.writes, afterBusWrite_scripts] using hscripts
  rw [reads_pair (t := ((s.writes .main (pairAt lo hi v)).setCfg c).finish .ok .none) hs hlo hhi hvlo hvhi]
  exact congrArg Value.half (half_hi_lo v)

/-- A row that sets a pair and a row that gets it, one after the other: the second returns the value of the first. -/
theorem getPair_after_setPair {setter getter : Instr} {s : State} {lo hi : RegMap → Loc} {v : Half} {c : RadioConfig}
    (hs : InService s) (hscripts : s.env.scripts = []) (hne : lo s.par.reg ≠ hi s.par.reg)
    (hlo : ReadsBack s.par.reg (lo s.par.reg)) (hhi : ReadsBack s.par.reg (hi s.par.reg))
    (hset : exec setter s = .next (State.finish
      ((s.writes .main (pairAt (lo s.par.reg) (hi s.par.reg) v)).setCfg c) .ok .none))
    (hget : ∀ {t : State}, InService t → exec getter t =
      .next ((t.reads .main [lo t.par.reg, hi t.par.reg]).2.finish .ok
        (pairValue (t.reads .main [lo t.par.reg, hi t.par.reg]).1))) :
    ∃ t u, exec setter s = .next t ∧ exec getter t = .next u ∧ u.result = ⟨.ok, .half v⟩ := by
  have hgot := hget (hs.finish_writes (pairAt (lo s.par.reg) (hi s.par.reg) v) c .ok .none)
  rw [finish_writes_par, pairValue_reads_writes v c hscripts hne hlo hhi] at hgot
  exact ⟨_, _, hset, hgot, rfl⟩

/-- Settles O9: the getter's two reads answer the bytes the setter wrote, which its writes left as known bytes. -/
theorem addressPairsReadBack : Obligations.AddressPairsReadBack := by
  intro s v hs hscripts
  have ⟨⟨_, _, hwf⟩, _⟩ := hs
  have back {l : Loc} := RegMap.addressRegister_readsBack (l := l) (Params.reg_wf hwf)
  exact ⟨fun hne hp => getPair_after_setPair (lo := RegMap.panl) (hi := RegMap.panh) hs hscripts hne
      (back (by simp) (hp _ (by simp))) (back (by simp) (hp _ (by simp))) (exec_setPan hs v) exec_getPan,
    fun hne hp => getPair_after_setPair (lo := RegMap.sadrl) (hi := RegMap.sadrh) hs hscripts hne
      (back (by simp) (hp _ (by simp))) (back (by simp) (hp _ (by simp))) (exec_setShortAddress hs v)
      exec_getShortAddress⟩

end Sys2Proof.Machine

/-! # Encodings and the step (30 R71 to R90, 43 R162, 70 R224)

An address byte is known by its fields, so that a decoder reads back what the encoder put there, and as a number. With a
round-trip lemma per kind of operand, decoding is the inverse of encoding (`DecodeOfEncode`). An equation per source of
the next operation says what a step runs (`StepRunsTheDecoded`). -/

namespace Sys2Proof

/-! ## Appended fields -/

/-- Appending puts the left field above the bits of the right one. -/
theorem toNat_append_eq_add {m n : Nat} (x : BitVec m) (y : BitVec n) :
    (x ++ y).toNat = 2 ^ n * x.toNat + y.toNat := by
  rw [BitVec.toNat_append, ← Nat.shiftLeft_add_eq_or_of_lt y.isLt, Nat.shiftLeft_eq, Nat.mul_comm]

/-! ## Address bytes (30 R71, R72, R90) -/

theorem shortAddrByte_toNat (a : BusAddr) (d : BitVec 1) :
    (shortAddrByte a d).toNat = 2 * (a.toNat % 64) + d.toNat := by
  have hhigh : (0#1 ++ a.extractLsb' 0 6).toNat = a.toNat % 64 := (toNat_append_eq_add _ _).trans (by simp)
  exact (toNat_append_eq_add (0#1 ++ a.extractLsb' 0 6) d).trans (by rw [hhigh, Nat.pow_one])

theorem longAddrByte0_toNat (a : BusAddr) : (longAddrByte0 a).toNat = 128 + a.toNat / 8 % 128 :=
  (toNat_append_eq_add 1#1 (a.extractLsb' 3 7)).trans (by simp [Nat.shiftRight_eq_div_pow])

theorem longAddrByte1_toNat (a : BusAddr) (m : BitVec 5) :
    (longAddrByte1 a m).toNat = 32 * (a.toNat % 8) + m.toNat :=
  (toNat_append_eq_add (a.extractLsb' 0 3) m).trans (by simp)

/-- Settles O3: each byte is an append of fields, and an append is a sum. -/
theorem addressBytes : Obligations.AddressBytes := fun a d m =>
  ⟨shortAddrByte_toNat a d, longAddrByte0_toNat a, longAddrByte1_toNat a m⟩

@[simp] theorem shortAddrByte_kind (a : BusAddr) (d : BitVec 1) : (shortAddrByte a d)[7] = false :=
  (BitVec.getElem_append (by decide)).trans ((BitVec.getElem_append (by decide)).trans rfl)

@[simp] theorem shortAddrByte_dir (a : BusAddr) (d : BitVec 1) : (shortAddrByte a d).extractLsb' 0 1 = d :=
  BitVec.extractLsb'_append_eq_right

@[simp] theorem shortAddrByte_addr (a : BusAddr) (d : BitVec 1) :
    (shortAddrByte a d).extractLsb' 1 6 = a.extractLsb' 0 6 := by
  rw [shortAddrByte, BitVec.extractLsb'_append_eq_of_le (by decide)]
  exact BitVec.extractLsb'_append_eq_right

@[simp] theorem longAddrByte0_kind (a : BusAddr) : (longAddrByte0 a)[7] = true :=
  (BitVec.getElem_append (by decide)).trans (by simp)

@[simp] theorem longAddrByte0_addr (a : BusAddr) : (longAddrByte0 a).extractLsb' 0 7 = a.extractLsb' 3 7 :=
  BitVec.extractLsb'_append_eq_right

@[simp] theorem longAddrByte1_addr (a : BusAddr) (m : BitVec 5) :
    (longAddrByte1 a m).extractLsb' 5 3 = a.extractLsb' 0 3 :=
  BitVec.extractLsb'_append_eq_left

@[simp] theorem longAddrByte1_mask (a : BusAddr) (m : BitVec 5) : (longAddrByte1 a m).extractLsb' 0 5 = m :=
  BitVec.extractLsb'_append_eq_right

/-- Six address bits hold a short-space address. -/
theorem shortAddr_of_fields {a : BitVec 8} (ha : a.toNat < 64) :
    ((a.setWidth 12).extractLsb' 0 6).setWidth 8 = a := by
  apply BitVec.eq_of_toNat_eq
  simp
  omega

/-- Ten address bits, in the fields of the two bytes, hold a long-space address. -/
theorem longAddr_of_fields {a : BusAddr} (ha : a.toNat < 1024) :
    (a.extractLsb' 3 7 ++ a.extractLsb' 0 3).setWidth 12 = a := by
  have hjoin : a.extractLsb' 3 7 ++ a.extractLsb' 0 3 = a.extractLsb' 0 10 :=
    BitVec.extractLsb'_append_extractLsb'_eq_extractLsb' rfl
  rw [hjoin]
  apply BitVec.eq_of_toNat_eq
  simp
  omega

/-! ## Bus transactions -/

/-- A SHORT transaction is told a write from a read by its direction bit. -/
theorem decodeBus_short (p : Params) {a : BitVec 8} (ha : a.toNat < 64) (d : BitVec 1) (rest : List Byte) :
    decodeBus p (shortAddrByte (a.setWidth 12) d :: rest) =
      if d = p.shortDirWr then withData rest (.swr a) else .ok (.srd a) := by
  simp [decodeBus, decodeShort, shortAddr_of_fields ha]

/-- A LONG transaction is told a write from a read by its direction mask. -/
theorem decodeBus_long (p : Params) {a : BusAddr} (ha : a.toNat < 1024) (m : BitVec 5) (rest : List Byte) :
    decodeBus p (longAddrByte0 a :: longAddrByte1 a m :: rest) =
      if m = 0 then .ok (.lrd a) else if m = p.longDirWr then withData rest (.lwr a) else .error .badDirection := by
  simp [decodeBus, decodeLong, longAddr_of_fields ha]

/-- A SHORT read carries the other direction bit than a write (30 R71). -/
theorem dir_complement_ne : ∀ d : BitVec 1, ~~~d ≠ d := by decide

theorem decodeBus_wireRead_short (p : Params) {a : BitVec 8} (ha : a.toNat < 64) :
    decodeBus p (wireRead p (shortLoc a)) = .ok (.srd a) :=
  (decodeBus_short p ha _ []).trans (if_neg (dir_complement_ne p.shortDirWr))

theorem decodeBus_wireWrite_short (p : Params) {a : BitVec 8} (ha : a.toNat < 64) (v : Byte) :
    decodeBus p (wireWrite p (shortLoc a) v) = .ok (.swr a v) :=
  (decodeBus_short p ha _ [v]).trans (if_pos rfl)

theorem decodeBus_wireRead_long (p : Params) {a : BusAddr} (ha : a.toNat < 1024) :
    decodeBus p (wireRead p (longLoc a)) = .ok (.lrd a) :=
  (decodeBus_long p ha 0 []).trans (if_pos rfl)

/-- A write's mask must differ from a read's, or its address bytes are a read's (notes/assumptions/23.md). -/
theorem decodeBus_wireWrite_long {p : Params} (hp : p.longDirWr ≠ 0) {a : BusAddr} (ha : a.toNat < 1024) (v : Byte) :
    decodeBus p (wireWrite p (longLoc a) v) = .ok (.lwr a v) :=
  (decodeBus_long p ha _ [v]).trans ((if_neg hp).trans (if_pos rfl))

/-! ## Operands of host commands (30 R87) -/

theorem operand16_lo_hi (v : Half) (k : Half → Instr) : operand16 [v.lo, v.hi] k = .ok (k v) :=
  congrArg (fun u => Except.ok (k u)) (Machine.half_hi_lo v)

theorem operandBool_boolByte (b : Bool) (k : Bool → Instr) : operandBool [boolByte b] k = .ok (k b) := by
  cases b <;> rfl

theorem lenByte_toNat {payload : List Byte} (h : payload.length < 256) : (lenByte payload).toNat = payload.length :=
  Nat.mod_eq_of_lt h

theorem operandFrame_frameOperand (v : Half) {payload : List Byte} (h : payload.length < 256)
    (k : Half → List Byte → Instr) : operandFrame (frameOperand v payload) k = .ok (k v payload) := by
  simp [operandFrame, frameOperand, lenByte_toNat h, Machine.half_hi_lo]

/-! ## Interrupt status (30 R79) -/

theorem decodeIntstat_bRxif (p : Params) :
    decodeIntstat p [BitVec.twoPow 8 p.reg.bRxif.val] = .ok .rxpath := by
  simp [decodeIntstat, intstatPaths]

/-- `RXPATH` comes first, so the two cause bits must differ for `TXPATH` to have a byte of its own. -/
theorem decodeIntstat_bTxif {p : Params} (h : p.reg.bRxif ≠ p.reg.bTxif) :
    decodeIntstat p [BitVec.twoPow 8 p.reg.bTxif.val] = .ok .txpath := by
  simp [decodeIntstat, intstatPaths, Fin.val_inj, h]

theorem RegMap.causes_ne {r : RegMap} (h : r.wf = true) : r.bRxif ≠ r.bTxif := by
  simp only [RegMap.wf, Bool.and_eq_true, decide_eq_true_eq] at h
  obtain ⟨⟨⟨-, hne⟩, -⟩, -⟩ := h
  exact hne

/-! ## Vendor messages (43 R162) -/

/-- A type byte without a row of its own is `MXX`, whatever follows it. -/
theorem decodeMsg_unknown (online : Bool) {t : Byte} (ht : t ∉ knownTypes) (rest : List Byte) :
    decodeMsg online (t :: rest) = .mxx t := by
  simp only [knownTypes, List.mem_cons, List.not_mem_nil, or_false, ← BitVec.toNat_inj] at ht
  simp only [decodeMsg]
  split
  case h_7 => rfl
  all_goals exact absurd (by simp [‹t.toNat = _›]) ht

/-! ## The round trip -/

/-- Settles O2: row by row, the decoder of the row's port reads back the fields that the encoder wrote. -/
theorem decodeOfEncode : Obligations.DecodeOfEncode := by
  intro p i hreg hdir hi
  cases i with
  | srd a => exact decodeBus_wireRead_short p (of_decide_eq_true hi)
  | swr a v => exact decodeBus_wireWrite_short p (of_decide_eq_true hi) v
  | lrd a => exact decodeBus_wireRead_long p (of_decide_eq_true hi)
  | lwr a v => exact decodeBus_wireWrite_long hdir (of_decide_eq_true hi) v
  | setPan v => exact operand16_lo_hi v .setPan
  | setShortAddress v => exact operand16_lo_hi v .setShortAddress
  | setPromiscuous b => exact operandBool_boolByte b .setPromiscuous
  | setPanController b => exact operandBool_boolByte b .setPanController
  | send fcf payload => exact operandFrame_frameOperand fcf (of_decide_eq_true hi) .send
  | send16Ack dest payload => exact operandFrame_frameOperand dest (of_decide_eq_true hi) .send16Ack
  | rxpath => exact decodeIntstat_bRxif p
  | txpath => exact decodeIntstat_bTxif (RegMap.causes_ne hreg)
  | mxx t => exact congrArg Except.ok (decodeMsg_unknown false (of_decide_eq_true hi) [])
  | irq => exact .inl rfl
  | onReceive => exact .inr (.inl rfl)
  | onTxComplete => exact .inr (.inr rfl)
  | reset | init | setChannel | getPan | getShortAddress | rxDisable | rxEnable | poll => rfl
  | getRxRecord | getTxRecord => rfl
  | m07 | m01a | m13 | m08 | m01d | m02 | m0a | malformed => rfl

/-- Settles O1: the decoder evaluates each word. -/
theorem wordsDecode : Obligations.WordsDecode :=
  ⟨rfl, rfl, rfl, rfl, rfl, rfl, rfl, rfl, rfl, rfl⟩

end Sys2Proof

namespace Sys2Proof.Machine

/-! ## The channel value (30 R80) -/

theorem channelValue_toNat {n : Byte} (h11 : 11 ≤ n.toNat) (h26 : n.toNat ≤ 26) :
    (channelValue n).toNat = 16 * (n.toNat - 11) + 3 := by
  have hsub : (n - 11).toNat = n.toNat - 11 := BitVec.toNat_sub_of_le h11
  calc (channelValue n).toNat
      = (n.toNat - 11) <<< 4 % 256 ||| 3 := by rw [channelValue, BitVec.toNat_or, BitVec.toNat_shiftLeft, hsub]; rfl
    _ = (n.toNat - 11) <<< 4 ||| 3 := by rw [Nat.mod_eq_of_lt (by rw [Nat.shiftLeft_eq]; omega)]
    _ = (n.toNat - 11) <<< 4 + 3 := (Nat.shiftLeft_add_eq_or_of_lt (by decide) _).symm
    _ = 16 * (n.toNat - 11) + 3 := by rw [Nat.shiftLeft_eq, Nat.mul_comm]

/-- Settles O20: the two four-bit fields, read off the number they make. -/
theorem channelValues : Obligations.ChannelValues := by
  intro n h11 h26
  have hvalue := channelValue_toNat h11 h26
  exact ⟨hvalue, by omega, by omega⟩

/-! ## What a step runs (10 R24, 30 R87, 42 R140, 70 R224) -/

/-- With nothing else to move, an idle turn is the main context's. -/
theorem idleTurn_quiet {s : State} (h : Quiet s) : idleTurn s = mainTurn s := by
  obtain ⟨hagenda, hline, -, -⟩ := h
  simp [idleTurn, hagenda, entryCond, hline]

theorem idleTurn_proceed {s : State} {as : List Act} (h : s.env.agenda = .proceed :: as) :
    idleTurn s = mainTurn (s.setAgenda as) := by
  simp [idleTurn, h]

theorem idleTurn_startIrq {s : State} {as : List Act} (h : s.env.agenda = .startIrq :: as) (hc : entryCond s = true) :
    idleTurn s = exec .irq (s.setAgenda as) := by
  simp [idleTurn, h, hc]

theorem step_irqIdle {s : State} (h : s.irqCtl = .idle) : step s = idleTurn s := by
  simp [step, turn, h]

theorem step_irqSelected {s : State} {i : Instr} (h : s.irqCtl = .running i 0) :
    step s = exec i (s.setIrqCtl .idle) := by
  simp [step, turn, h]

theorem mainTurn_selected {s : State} {i : Instr} (h : s.mainCtl = .running i 0) :
    mainTurn s = exec i (s.setMainCtl .idle) := by
  simp [mainTurn, h]

theorem mainTurn_command {s : State} {bytes : List Byte} {rest : List (List Byte)} {i : Instr}
    (hidle : s.mainCtl = .idle) (hq : s.hostq = bytes :: rest) (hi : decodeHost bytes = .ok i) :
    mainTurn s = exec i (s.setHostq rest) := by
  simp [mainTurn, hidle, hq, takeCommand, hi]

/-! ## A word placed for the next step (notes/assumptions/15.md) -/

theorem withFetchWord_command {s : State} {w : Nat} {i : Instr} (h : decodeHost (hostFrame w) = .ok i) :
    s.withFetchWord 8 w = (readyToFetch s).setHostq (hostFrame w :: s.hostq) := by
  simp [State.withFetchWord, placeWord, h]

theorem withFetchWord_message {s : State} {w : Nat} {e : DecodeError} (h : decodeHost (hostFrame w) = .error e) :
    s.withFetchWord 8 w = ((readyToFetch s).setDec (decWithPayload s.dec (msgPayload w))).setMainCtl
      (.running (decodeMsg false (msgPayload w)) 0) := by
  simp [State.withFetchWord, placeWord, h]

theorem withFetchWord_wide {s : State} {nbits w : Nat} {i : Instr} (h8 : nbits ≠ 8)
    (h : decodeTableWord nbits w = some i) :
    s.withFetchWord nbits w = (readyToFetch s).setMainCtl (.running i 0) := by
  simp [State.withFetchWord, placeWord, h]

/-- A placed word stands behind a `proceed`: the next step is the main context's turn, on the agenda as it was. -/
theorem step_proceed {s : State} {as : List Act} (hirq : s.irqCtl = .idle) (h : s.env.agenda = .proceed :: as) :
    step s = mainTurn (s.setAgenda as) :=
  (step_irqIdle hirq).trans (idleTurn_proceed h)

/-- What the row of a placed word finds: both contexts idle, with the configuration, environment and queue of `s`. -/
def IdleCopy (s t : State) : Prop :=
  t.mainCtl = .idle ∧ t.irqCtl = .idle ∧ t.par = s.par ∧ t.env = s.env ∧ t.hostq = s.hostq

theorem step_withFetchWord_byte {s : State} {w : Nat} {i : Instr} (h : decodeTableWord 8 w = some i) :
    ∃ t, step (s.withFetchWord 8 w) = exec i t ∧ IdleCopy s t := by
  cases hcmd : decodeHost (hostFrame w) with
  | ok j =>
    obtain rfl : j = i := by simpa [decodeTableWord, hcmd] using h
    rw [withFetchWord_command hcmd]
    exact ⟨_, (step_proceed rfl rfl).trans (mainTurn_command rfl rfl hcmd), rfl, rfl, rfl, rfl, rfl⟩
  | error e =>
    obtain rfl : decodeMsg false (msgPayload w) = i := by simpa [decodeTableWord, hcmd] using h
    rw [withFetchWord_message hcmd]
    exact ⟨_, (step_proceed rfl rfl).trans (mainTurn_selected rfl), rfl, rfl, rfl, rfl, rfl⟩

theorem step_withFetchWord {s : State} {nbits w : Nat} {i : Instr} (h : decodeTableWord nbits w = some i) :
    ∃ t, step (s.withFetchWord nbits w) = exec i t ∧ IdleCopy s t := by
  by_cases h8 : nbits = 8
  · subst h8
    exact step_withFetchWord_byte h
  · rw [withFetchWord_wide h8 h]
    exact ⟨_, (step_proceed rfl rfl).trans (mainTurn_selected rfl), rfl, rfl, rfl, rfl, rfl⟩

/-- Settles O59: each clause names the source that the turn looks at, and what it runs from there. -/
theorem stepRunsTheDecoded : Obligations.StepRunsTheDecoded := by
  refine ⟨?command, ?selected, fun _ _ => step_irqSelected, ?startIrq, fun _ _ _ _ => step_withFetchWord⟩
  case command =>
    intro s bytes rest i hquiet hidle hirq hq hi
    exact (step_irqIdle hirq).trans ((idleTurn_quiet hquiet).trans (mainTurn_command hidle hq hi))
  case selected =>
    intro s i hquiet hirq hsel
    exact (step_irqIdle hirq).trans ((idleTurn_quiet hquiet).trans (mainTurn_selected hsel))
  case startIrq =>
    intro s as hirq hagenda hentry
    exact (step_irqIdle hirq).trans (idleTurn_startIrq hagenda hentry)

end Sys2Proof.Machine

/-! # The register bus (40 R100 to R106)

The four transaction rows are two operations, a read and a write, at a location of either space, so each statement is
proved once for a location and read off for the rows. What a write does at the transceiver follows from the list of the
roles of 20 R57 (`Env.roles`): each role that the location has does its effect in turn, so an effect that the later roles
leave alone is there in the end. -/

namespace Sys2Proof.Machine

/-! ## The two operations -/

/-- The body of `SRD` and `LRD` (40 R101, R103). -/
def readRow (l : Loc) : Op Value := do requireRange l; let v ← mainRead l; pure (.byte v)

/-- The body of `SWR` and `LWR` (40 R102, R104). -/
def writeRow (l : Loc) (v : Byte) : Op Value := do requireRange l; mainWrite l v; pure .none

theorem exec_srd (a : BitVec 8) (s : State) : exec (.srd a) s = runMain (.srd a) (readRow (shortLoc a)) s := rfl
theorem exec_lrd (a : BusAddr) (s : State) : exec (.lrd a) s = runMain (.lrd a) (readRow (longLoc a)) s := rfl

theorem exec_swr (a : BitVec 8) (v : Byte) (s : State) :
    exec (.swr a v) s = runMain (.swr a v) (writeRow (shortLoc a) v) s := rfl

theorem exec_lwr (a : BusAddr) (v : Byte) (s : State) :
    exec (.lwr a v) s = runMain (.lwr a v) (writeRow (longLoc a) v) s := rfl

theorem shortLoc_inRange_eq (a : BitVec 8) : (shortLoc a).inRange = decide (a.toNat < 64) := by
  have hwidth : (a.setWidth 12).toNat = a.toNat := by simp; omega
  simp [Loc.inRange, shortLoc, hwidth, Space.size]

theorem longLoc_inRange_eq (a : BusAddr) : (longLoc a).inRange = decide (a.toNat < 1024) := rfl

theorem shortLoc_inRange {a : BitVec 8} (h : a.toNat < 64) : (shortLoc a).inRange = true :=
  (shortLoc_inRange_eq a).trans (decide_eq_true h)

theorem longLoc_inRange {a : BusAddr} (h : a.toNat < 1024) : (longLoc a).inRange = true :=
  (longLoc_inRange_eq a).trans (decide_eq_true h)

theorem shortLoc_outOfRange {a : BitVec 8} (h : 64 ≤ a.toNat) : (shortLoc a).inRange = false :=
  (shortLoc_inRange_eq a).trans (decide_eq_false (Nat.not_lt.2 h))

theorem longLoc_outOfRange {a : BusAddr} (h : 1024 ≤ a.toNat) : (longLoc a).inRange = false :=
  (longLoc_inRange_eq a).trans (decide_eq_false (Nat.not_lt.2 h))

/-! ## Refused (40 R105) -/

theorem Fails.readRow {l : Loc} (hl : l.inRange = false) (s : State) : Fails (Machine.readRow l) s .badBusAddr s :=
  Fails.bind (Fails.require hl)

theorem Fails.writeRow {l : Loc} (hl : l.inRange = false) (v : Byte) (s : State) :
    Fails (Machine.writeRow l v) s .badBusAddr s := Fails.bind (Fails.require hl)

/-- Settles O7: the range check comes first and ends the operation with its code. -/
theorem busAddressRefused : Obligations.BusAddressRefused := fun s v hidle =>
  ⟨fun _ ha => ⟨runMain_fails hidle (Fails.readRow (shortLoc_outOfRange ha) s),
      runMain_fails hidle (Fails.writeRow (shortLoc_outOfRange ha) v s)⟩,
    fun _ ha => ⟨runMain_fails hidle (Fails.readRow (longLoc_outOfRange ha) s),
      runMain_fails hidle (Fails.writeRow (longLoc_outOfRange ha) v s)⟩⟩

/-! ## Stuck (40 R106) -/

/-- Nothing else moves, and the next transaction is answered `stuck`. -/
structure NextSticks (s : State) : Prop where
  agenda : s.env.agenda = []
  line : s.env.irqLine = false
  stuck : s.env.stuckAfter = some 0

theorem NextSticks.mainRead {s : State} (h : NextSticks s) {l : Loc} (hl : l.inRange = true) :
    ∃ t, mainRead l s = .error (.fault (.busStuck .main)) t :=
  ⟨_, (elem_quiet _ h.agenda h.line).trans (by simp [busRead, hl, h.stuck]; rfl)⟩

theorem NextSticks.mainWrite {s : State} (h : NextSticks s) {l : Loc} (hl : l.inRange = true) (v : Byte) :
    ∃ t, mainWrite l v s = .error (.fault (.busStuck .main)) t :=
  ⟨_, (elem_quiet _ h.agenda h.line).trans (by simp [busWrite, hl, h.stuck]; rfl)⟩

theorem requireRange_ok {l : Loc} (hl : l.inRange = true) (s : State) : requireRange l s = .ok () s := by
  simp [requireRange, hl]

/-- A fault of the operation is the fault of the row. -/
theorem runMain_fault {i : Instr} {x : Op Value} {s t : State} {f : Fault} (hidle : s.mainCtl = .idle)
    (h : x (s.setMainCtl (.running i 0)) = .error (.fault f) t) : runMain i x s = .fault f := by
  simp only [runMain, hidle, h]

theorem NextSticks.readRow {s : State} (h : NextSticks s) (hidle : s.mainCtl = .idle) {l : Loc}
    (hl : l.inRange = true) (i : Instr) : runMain i (readRow l) s = .fault (.busStuck .main) := by
  obtain ⟨t, ht⟩ := NextSticks.mainRead (s := s.setMainCtl (.running i 0)) ⟨h.agenda, h.line, h.stuck⟩ hl
  exact runMain_fault hidle ((op_bind_ok (requireRange_ok hl _)).trans (op_bind_error ht))

theorem NextSticks.writeRow {s : State} (h : NextSticks s) (hidle : s.mainCtl = .idle) {l : Loc}
    (hl : l.inRange = true) (v : Byte) (i : Instr) : runMain i (writeRow l v) s = .fault (.busStuck .main) := by
  obtain ⟨t, ht⟩ := NextSticks.mainWrite (s := s.setMainCtl (.running i 0)) ⟨h.agenda, h.line, h.stuck⟩ hl v
  exact runMain_fault hidle ((op_bind_ok (requireRange_ok hl _)).trans (op_bind_error ht))

/-- Settles O8: the one transaction of the row is the next one. -/
theorem stuckBusEndsTheRun : Obligations.StuckBusEndsTheRun := by
  intro s v hidle hagenda hline hstuck
  have h : NextSticks s := ⟨hagenda, hline, hstuck⟩
  exact ⟨fun _ ha => ⟨h.readRow hidle (shortLoc_inRange ha) _, h.writeRow hidle (shortLoc_inRange ha) v _⟩,
    fun _ ha => ⟨h.readRow hidle (longLoc_inRange ha) _, h.writeRow hidle (longLoc_inRange ha) v _⟩⟩

/-! ## Completed -/

theorem Runs.readRow {l : Loc} {s t : State} {v : Byte} (hl : l.inRange = true) (h : Runs (Machine.mainRead l) s v t) :
    Runs (Machine.readRow l) s (.byte v) t := Runs.bind (Runs.require hl) (Runs.bind h (Runs.pure _ _))

theorem Runs.writeRow {l : Loc} {v : Byte} {s t : State} (hl : l.inRange = true)
    (h : Runs (Machine.mainWrite l v) s () t) : Runs (Machine.writeRow l v) s .none t :=
    Runs.bind (Runs.require hl) (Runs.bind h (Runs.pure _ _))

/-- Where the agenda lets the main context proceed, an elementary step is the step, whatever the causes and the line. -/
theorem Runs.elem_proceed {α : Type} {x : Op α} {s t : State} {a : α} {as : List Act}
    (hagenda : s.env.agenda = .proceed :: as) (h : Runs x (s.setAgenda as) a t) : Runs (Machine.elem x) s a t := by
  intro c
  obtain ⟨d, hd⟩ := h c.tick
  have hb : boundary (s.setMainCtl c) = .ok () ((s.setMainCtl c).setAgenda as) := by
    simp [boundary, hagenda, drain]
  refine ⟨d, ?_⟩
  unfold Machine.elem
  rw [op_bind_ok hb, op_bind_ok (op_update _ _)]
  exact hd

theorem NextStep.mainRead {s : State} (h : NextStep s) {l : Loc} (hl : l.inRange = true) :
    Runs (Machine.mainRead l) s ((s.setAgenda []).env.read s.par.reg l).1 ((s.setAgenda []).afterBusRead .main l) := by
  obtain ⟨-, hagenda, hstuck, -⟩ := h
  exact Runs.elem_proceed hagenda fun c => ⟨c, busRead_run (s := (s.setAgenda []).setMainCtl c) hl hstuck⟩

theorem NextStep.mainWrite {s : State} (h : NextStep s) {l : Loc} (hl : l.inRange = true) (v : Byte) :
    Runs (Machine.mainWrite l v) s () ((s.setAgenda []).afterBusWrite .main l v) := by
  obtain ⟨-, hagenda, hstuck, -⟩ := h
  exact Runs.elem_proceed hagenda fun c => ⟨c, busWrite_run (s := (s.setAgenda []).setMainCtl c) hl hstuck⟩

/-! ## What a read does at the transceiver (20 R57, R66 law (4)) -/

/-- The answer to a read leaves causes and line to `Env.afterRead`. -/
theorem Env.answer_causes (r : RegMap) (e : Env) (l : Loc) :
    (e.answer r l).2.pending = e.pending ∧ (e.answer r l).2.irqLine = e.irqLine := by
  unfold Env.answer
  split
  · exact ⟨rfl, rfl⟩
  · split
    · exact ⟨rfl, rfl⟩
    · split <;> exact ⟨rfl, rfl⟩

theorem Env.read_intstat (r : RegMap) (e : Env) :
    (e.read r r.intstat).2.pending = 0 ∧ (e.read r r.intstat).2.irqLine = false := by
  simp [Env.read, Env.afterRead]

theorem Env.read_intstat_value {r : RegMap} {e : Env} (h : takeScript r.intstat e.scripts = none) :
    (e.read r r.intstat).1 = e.pending := by
  simp [Env.read, Env.answer, h]

theorem Env.read_causes {r : RegMap} {l : Loc} (hl : l ≠ r.intstat) (e : Env) :
    (e.read r l).2.pending = e.pending ∧ (e.read r l).2.irqLine = e.irqLine := by
  simpa only [Env.read, Env.afterRead, if_neg hl] using Env.answer_causes r e l

/-- What a completed read of `l` leaves of the causes and the line, and which byte `v` it returns at `A_INTSTAT`. -/
abbrev ReadEffects (r : RegMap) (l : Loc) (v : Byte) (e e' : Env) : Prop :=
  (l = r.intstat → e'.pending = 0 ∧ e'.irqLine = false ∧ (takeScript l e.scripts = none → v = e.pending)) ∧
  (l ≠ r.intstat → e'.pending = e.pending ∧ e'.irqLine = e.irqLine)

theorem Env.read_effects (r : RegMap) (e : Env) (l : Loc) : ReadEffects r l (e.read r l).1 e (e.read r l).2 := by
  refine ⟨?_, fun hl => Env.read_causes hl e⟩
  rintro rfl
  obtain ⟨hpending, hline⟩ := Env.read_intstat r e
  exact ⟨hpending, hline, Env.read_intstat_value⟩

/-- The main context's next step is the read of `l`. -/
theorem runMain_readRow_nextStep {s : State} (h : NextStep s) {l : Loc} (hl : l.inRange = true) (i : Instr) :
    ∃ (t : State) (v : Byte), runMain i (readRow l) s = .next t ∧ t.result = ⟨.ok, .byte v⟩ ∧
      t.bus = s.bus ++ [⟨.main, .read, l, v, wireRead s.par l⟩] ∧ ReadEffects s.par.reg l v s.env t.env :=
  ⟨((s.setAgenda []).afterBusRead .main l).finish .ok (.byte ((s.setAgenda []).env.read s.par.reg l).1), _,
    runMain_runs h.1 (Runs.readRow hl (h.mainRead hl)), rfl, rfl, Env.read_effects s.par.reg (s.setAgenda []).env l⟩

/-! ## The bytes on the wire (30 R71, R72) -/

theorem shortLoc_addr_toNat {a : BitVec 8} (h : a.toNat < 64) : (shortLoc a).addr.toNat % 64 = a.toNat := by
  have hwidth : (shortLoc a).addr.toNat = a.toNat % 2 ^ 12 := BitVec.toNat_setWidth 12 a
  omega

theorem shortReadByte_toNat (p : Params) {a : BitVec 8} (h : a.toNat < 64) :
    (shortAddrByte (shortLoc a).addr (~~~p.shortDirWr)).toNat = 2 * a.toNat + (1 - p.shortDirWr.toNat) := by
  rw [shortAddrByte_toNat, shortLoc_addr_toNat h, BitVec.toNat_not]

theorem shortWriteByte_toNat (p : Params) {a : BitVec 8} (h : a.toNat < 64) :
    (shortAddrByte (shortLoc a).addr p.shortDirWr).toNat = 2 * a.toNat + p.shortDirWr.toNat := by
  rw [shortAddrByte_toNat, shortLoc_addr_toNat h]

/-- The upper seven of ten address bits, as a number. -/
theorem longAddrByte0_toNat_of_lt {a : BusAddr} (h : a.toNat < 1024) :
    (longAddrByte0 a).toNat = 128 + a.toNat / 8 := by
  rw [longAddrByte0_toNat]
  omega

/-- Settles O5: the row is one read at its location; the causes and the line are those of `Env.read_effects`. -/
theorem busReads : Obligations.BusReads := by
  refine ⟨fun s ⟨hq, hidle, _⟩ => ⟨fun a ha => ?shortAtRest, fun a ha => ?longAtRest⟩, ?short, ?long⟩
  case shortAtRest =>
    exact runMain_runs hidle (Runs.readRow (shortLoc_inRange ha) (Runs.mainRead hq (shortLoc_inRange ha)))
  case longAtRest =>
    exact runMain_runs hidle (Runs.readRow (longLoc_inRange ha) (Runs.mainRead hq (longLoc_inRange ha)))
  case short =>
    intro s a hs ha
    obtain ⟨t, v, hexec, hresult, hbus, heffects⟩ := runMain_readRow_nextStep hs (shortLoc_inRange ha) (.srd a)
    exact ⟨t, v, _, hexec, hresult, hbus, shortReadByte_toNat s.par ha, heffects⟩
  case long =>
    intro s a hs ha
    obtain ⟨t, v, hexec, hresult, hbus, heffects⟩ := runMain_readRow_nextStep hs (longLoc_inRange ha) (.lrd a)
    exact ⟨t, v, _, _, hexec, hresult, hbus, longAddrByte0_toNat_of_lt ha, longAddrByte1_toNat a 0, heffects⟩

/-! ## What a write does at the transceiver (20 R57, 10 R32) -/

/-- The roles of 20 R57, in its order, each with its effect for a write of `v`. -/
def Env.roles (r : RegMap) (v : Byte) : List (Loc × (Env → Env)) :=
  [(r.softrst, Env.chipReset), (r.rxflush, Env.flushRx r), (r.txncon, (Env.trigger r · v)),
    (r.rxctl, (Env.switchRx r · v)), (r.rfctl, (Env.resetRf r · v)), (r.intcon, (Env.enableCauses r · v)),
    (r.channel, (Env.retune · v))]

/-- The effects, in turn, of those of the given roles that `l` has. -/
def Env.atRoles (l : Loc) (roles : List (Loc × (Env → Env))) (e : Env) : Env :=
  roles.foldl (fun e role => e.atRole l role.1 role.2) e

theorem Env.write_eq_atRoles (r : RegMap) (e : Env) (l : Loc) (v : Byte) :
    e.write r l v = (e.stored r l v).atRoles l (Env.roles r v) := rfl

/-- What the effect of each role that `l` has keeps, they all keep. -/
theorem Env.atRoles_keeps {P : Env → Prop} {l : Loc} {roles : List (Loc × (Env → Env))}
    (h : roles.Forall fun role => l = role.1 → ∀ e, P e → P (role.2 e)) {e : Env} (he : P e) : P (e.atRoles l roles) := by
  induction roles generalizing e with
  | nil => exact he
  | cons role roles ih =>
    obtain ⟨hrole, hroles⟩ := (List.forall_cons _ _ _).1 h
    refine ih hroles ?_
    show P (e.atRole l role.1 role.2)
    unfold Env.atRole
    split
    · next hl => exact hrole hl e he
    · exact he

/-- What the `n`-th role gives, and the later ones keep, is there after a write to that role's location. -/
theorem Env.write_gives_role {P : Env → Prop} {r : RegMap} {v : Byte} (n : Nat) {l : Loc} {f : Env → Env}
    (hn : (Env.roles r v)[n]? = some (l, f)) (hf : ∀ e, P (f e))
    (later : ((Env.roles r v).drop (n + 1)).Forall fun role => ∀ e, P e → P (role.2 e)) (e : Env) : P (e.write r l v) := by
  obtain ⟨hlt, hget⟩ := List.getElem?_eq_some_iff.1 hn
  have hsplit : Env.roles r v = (Env.roles r v).take n ++ (l, f) :: (Env.roles r v).drop (n + 1) := by
    rw [← hget, List.cons_getElem_drop_succ, List.take_append_drop]
  rw [Env.write_eq_atRoles, hsplit, Env.atRoles, List.foldl_append, List.foldl_cons, Env.atRole, if_pos rfl]
  exact Env.atRoles_keeps (later.imp fun role h (_ : l = role.1) => h) (hf _)

/-- The interrupt enable changes which causes drive the line, the line, and the free-value counter. -/
theorem Env.enableCauses_eq (r : RegMap) (e : Env) (v : Byte) :
    e.enableCauses r v = { e with
      enabled := (e.enableCauses r v).enabled, irqLine := (e.enableCauses r v).irqLine,
      draws := (e.enableCauses r v).draws } := by
  unfold Env.enableCauses
  split <;> rfl

theorem Env.peek_enableCauses (r : RegMap) (e : Env) (v : Byte) (l : Loc) : (e.enableCauses r v).peek l = e.peek l := by
  rw [Env.enableCauses_eq]; rfl

theorem Memory.look_forget (m : Memory) (base n a : Nat) :
    Memory.look (Memory.forget m base n) a = if base ≤ a ∧ a < base + n then none else Memory.look m a := by
  induction m with
  | nil => simp [Memory.forget, Memory.look]
  | cons c rest ih =>
    obtain ⟨b, w⟩ := c
    unfold Memory.forget at ih ⊢
    rw [List.filter_cons]
    by_cases hb : b < base ∨ base + n ≤ b
    · rw [if_pos (by simpa using hb)]
      by_cases ha : a = b
      · subst ha
        rw [if_neg (by omega)]
        simp [Memory.look]
      · simp only [Memory.look, if_neg ha, ih]
    · rw [if_neg (by simpa using hb), ih]
      by_cases ha : a = b
      · rw [if_pos (by omega), if_pos (by omega)]
      · simp only [Memory.look, if_neg ha]

/-- A flush forgets the bytes of the RX FIFO window, and no other. -/
theorem Env.peek_flushRx (r : RegMap) (e : Env) (l : Loc) :
    (e.flushRx r).peek l = if inRxFifo r l then none else e.peek l := by
  obtain ⟨sp, a⟩ := l
  have hwindow : inRxFifo r ⟨sp, a⟩ = true ↔
      sp = r.rxfifo.space ∧ r.rxfifo.addr.toNat ≤ a.toNat ∧ a.toNat < r.rxfifo.addr.toNat + 130 := by
    simp [inRxFifo, Loc.inWindow, and_assoc]
  simp only [hwindow]
  unfold Env.flushRx
  cases hr : r.rxfifo.space <;> cases sp <;> simp [Env.peek, Env.setMem, Env.mem, Memory.look_forget]

/-- After a write to the soft reset no location holds a known byte. -/
theorem Env.peek_write_softrst (r : RegMap) (e : Env) (v : Byte) (l : Loc) : (e.write r r.softrst v).peek l = none := by
  refine Env.write_gives_role (P := fun e' => e'.peek l = none) 0 rfl (fun e' => ?reset)
    ⟨fun e' h => ?flush, fun _ => id, fun _ => id, fun _ => id, fun e' => (Env.peek_enableCauses r e' v l).trans,
      fun _ => id⟩ e
  case reset => cases h : l.space <;> simp [Env.peek, Env.mem, h, Env.chipReset, Env.driveLine, Memory.look]
  case flush => rw [Env.peek_flushRx, h, ite_self]

/-- After a write to the flush the RX FIFO window holds no known byte. -/
theorem Env.peek_write_rxflush {r : RegMap} (e : Env) (v : Byte) {l : Loc} (hl : inRxFifo r l = true) :
    (e.write r r.rxflush v).peek l = none :=
  Env.write_gives_role (P := fun e' => e'.peek l = none) 1 rfl (fun e' => (Env.peek_flushRx r e' l).trans (if_pos hl))
    ⟨fun _ => id, fun _ => id, fun _ => id, fun e' => (Env.peek_enableCauses r e' v l).trans, fun _ => id⟩ e

theorem Env.enableCauses_txInFlight (r : RegMap) (e : Env) (v : Byte) :
    (e.enableCauses r v).txInFlight = e.txInFlight := by rw [Env.enableCauses_eq]

theorem Env.enableCauses_rxEnabled (r : RegMap) (e : Env) (v : Byte) :
    (e.enableCauses r v).rxEnabled = e.rxEnabled := by rw [Env.enableCauses_eq]

theorem Env.enableCauses_rfReset (r : RegMap) (e : Env) (v : Byte) :
    (e.enableCauses r v).rfReset = e.rfReset := by rw [Env.enableCauses_eq]

theorem Env.write_trigger {r : RegMap} {v : Byte} (hv : v = r.vTxtrig ∨ v = r.vTxtrigAck) (e : Env) :
    (e.write r r.txncon v).txInFlight = true := by
  refine Env.write_gives_role (P := fun e' => e'.txInFlight = true) 2 rfl (fun e' => ?_)
    ⟨fun _ => id, fun _ => id, fun e' => (Env.enableCauses_txInFlight r e' v).trans, fun _ => id⟩ e
  rcases hv with rfl | rfl <;> simp [Env.trigger, isTrigger]

theorem Env.setMem_txInFlight (e : Env) (sp : Space) (m : Memory) : (e.setMem sp m).txInFlight = e.txInFlight := by
  cases sp <;> rfl

theorem Env.poke_txInFlight (e : Env) (l : Loc) (v : Byte) : (e.poke l v).txInFlight = e.txInFlight := by
  unfold Env.poke
  split
  · exact Env.setMem_txInFlight _ _ _
  · rfl

/-- Only a write to the trigger register changes what is in flight. -/
theorem Env.write_txInFlight {r : RegMap} {l : Loc} (hl : l ≠ r.txncon) (e : Env) (v : Byte) :
    (e.write r l v).txInFlight = e.txInFlight := by
  refine Env.atRoles_keeps (P := fun e' => e'.txInFlight = e.txInFlight) (l := l) (roles := Env.roles r v)
    ⟨fun _ _ => id, fun _ e' h => ?flush, fun h => absurd h hl, fun _ _ => id, fun _ _ => id,
      fun _ e' => (Env.enableCauses_txInFlight r e' v).trans, fun _ _ => id⟩ ?store
  case flush => exact (Env.setMem_txInFlight _ _ _).trans h
  case store => exact Env.poke_txInFlight e l v

/-- A write to the reception switch leaves reception as the value says, or as it was. -/
theorem Env.write_rxctl (r : RegMap) (e : Env) (v : Byte) :
    (v = r.vRxdis → (e.write r r.rxctl v).rxEnabled = false) ∧
    (v = r.vRxen → r.vRxen ≠ r.vRxdis → (e.write r r.rxctl v).rxEnabled = true) := by
  have gives (b : Bool) (hb : ∀ now, rxEnabledAfter r v now = b) : (e.write r r.rxctl v).rxEnabled = b :=
    Env.write_gives_role (P := fun e' => e'.rxEnabled = b) 3 rfl (fun e' => hb e'.rxEnabled)
      ⟨fun _ => id, fun e' => (Env.enableCauses_rxEnabled r e' v).trans, fun _ => id⟩ e
  refine ⟨fun hv => gives false fun now => if_pos hv, fun hv hne => gives true fun now => ?_⟩
  rw [rxEnabledAfter, if_neg (hv ▸ hne), if_pos hv]

theorem Env.write_rfctl (r : RegMap) (e : Env) (v : Byte) :
    (v = r.vRfrstSet → (e.write r r.rfctl v).rfReset = true) ∧
    (v = r.vRfrstClr → r.vRfrstClr ≠ r.vRfrstSet → (e.write r r.rfctl v).rfReset = false) := by
  have gives (b : Bool) (hb : ∀ e' : Env, (e'.resetRf r v).rfReset = b) : (e.write r r.rfctl v).rfReset = b :=
    Env.write_gives_role (P := fun e' => e'.rfReset = b) 4 rfl hb
      ⟨fun e' => (Env.enableCauses_rfReset r e' v).trans, fun _ => id⟩ e
  refine ⟨fun hv => gives true fun _ => if_pos hv, fun hv hne => gives false fun _ => ?_⟩
  rw [Env.resetRf, if_neg (hv ▸ hne), if_pos hv]

theorem Env.write_pending (r : RegMap) (e : Env) (l : Loc) (v : Byte) : (e.write r l v).pending = e.pending := by
  rw [Env.write_frame r e l v]

/-- A write of `V_INTCON` enables the two known causes, and the line is high exactly when one of them is pending. -/
theorem Env.write_intcon (r : RegMap) (e : Env) :
    (e.write r r.intcon r.vIntcon).enabled = knownCauses r ∧
    (e.write r r.intcon r.vIntcon).irqLine = lineOf e.pending (knownCauses r) := by
  have h := Env.write_gives_role (r := r) (v := r.vIntcon)
    (P := fun e' => e'.enabled = knownCauses r ∧ e'.irqLine = lineOf e'.pending (knownCauses r)) 5 rfl
    (fun e' => by simp [Env.enableCauses, Env.driveLine]) (fun _ => id) e
  rwa [Env.write_pending] at h

theorem Env.write_channel (r : RegMap) (e : Env) (v : Byte) : (e.write r r.channel v).tuned = v :=
  Env.write_gives_role (P := fun e' => e'.tuned = v) 6 rfl (fun _ => rfl) trivial e

/-- The known causes are the bits of the two causes (30 R79). -/
theorem knownCauses_getLsbD (r : RegMap) (k : Fin 8) :
    (knownCauses r).getLsbD k.val = (decide (k = r.bRxif) || decide (k = r.bTxif)) := by
  simp [knownCauses, Fin.ext_iff]

theorem and_eq_zero_iff (x y : Byte) : x &&& y = 0 ↔ ∀ k : Fin 8, (x.getLsbD k.val && y.getLsbD k.val) = false := by
  refine ⟨fun h k => ?_, fun h => BitVec.eq_of_getLsbD_eq fun i hi => ?_⟩
  · rw [← BitVec.getLsbD_and, h]
    exact BitVec.getLsbD_zero
  · rw [BitVec.getLsbD_and, h ⟨i, hi⟩]; simp

/-- With the known causes enabled the line says whether one of them is pending. -/
theorem lineOf_knownCauses (r : RegMap) (pending : Byte) :
    lineOf pending (knownCauses r) = (pending.getLsbD r.bRxif.val || pending.getLsbD r.bTxif.val) := by
  have hnone : pending &&& knownCauses r = 0 ↔
      pending.getLsbD r.bRxif.val = false ∧ pending.getLsbD r.bTxif.val = false := by
    rw [and_eq_zero_iff]
    simp only [knownCauses_getLsbD]
    refine ⟨fun h => ⟨by simpa using h r.bRxif, by simpa using h r.bTxif⟩, fun ⟨hrx, htx⟩ k => ?_⟩
    by_cases hk : k = r.bRxif
    · rw [hk, hrx, Bool.false_and]
    · by_cases hk' : k = r.bTxif
      · rw [hk', htx, Bool.false_and]
      · simp [hk, hk']
  have hline : lineOf pending (knownCauses r) = decide (pending &&& knownCauses r ≠ 0) := by
    unfold lineOf
    split
    · next h => simp [h]
    · rfl
  rw [hline, Bool.eq_iff_iff, decide_eq_true_eq, Ne, hnone]
  cases pending.getLsbD r.bRxif.val <;> cases pending.getLsbD r.bTxif.val <;> decide

/-- The RX FIFO window are the 130 addresses from its base on (20 R62). -/
theorem inRxFifo_locPlus {r : RegMap} (hr : r.rxfifo.windowInRange 130 = true) {k : Nat} (hk : k < 130) :
    inRxFifo r (locPlus r.rxfifo k) = true := by
  have hend : r.rxfifo.addr.toNat + 130 ≤ 1024 :=
    (of_decide_eq_true hr).trans (by cases r.rxfifo.space <;> simp [Space.size])
  have haddr : (locPlus r.rxfifo k).addr.toNat = r.rxfifo.addr.toNat + k := by
    show (r.rxfifo.addr + BitVec.ofNat 12 k).toNat = _
    rw [BitVec.toNat_add, BitVec.toNat_ofNat]
    omega
  have hspace : (locPlus r.rxfifo k).space = r.rxfifo.space := rfl
  simp [inRxFifo, Loc.inWindow, haddr, hspace, hk]

/-- Everything that a write in range does at the transceiver, role by role. -/
theorem Env.write_effects {r : RegMap} (hr : r.wf = true) (e : Env) {l : Loc} (hl : l.inRange = true) (v : Byte) :
    WriteEffects r l v e (e.write r l v) := by
  obtain ⟨-, -, -, hrx⟩ := RegMap.ranges hr
  refine ⟨fun ⟨hs, hf⟩ => ⟨?same, fun l' hne => ?other⟩, ?softrst, ?rxflush, ?txncon, fun h => Env.write_txInFlight h e v,
    ?rxctl, ?rfctl, ?intcon, ?channel, Env.write_pending r e l v⟩
  case same => rw [Env.peek_write r e l l v hs hf, Env.peek_poke_same e l v hl]
  case other => rw [Env.peek_write r e l l' v hs hf, Env.peek_poke_other e l l' v hne]
  case softrst => rintro rfl l'; exact Env.peek_write_softrst r e v l'
  case rxflush => rintro rfl k hk; exact Env.peek_write_rxflush e v (inRxFifo_locPlus hrx hk)
  case txncon => rintro rfl hv; exact Env.write_trigger hv e
  case rxctl => rintro rfl; exact Env.write_rxctl r e v
  case rfctl => rintro rfl; exact Env.write_rfctl r e v
  case intcon =>
    rintro rfl rfl
    obtain ⟨henabled, hline⟩ := Env.write_intcon r e
    exact ⟨fun k => henabled ▸ knownCauses_getLsbD r k, hline.trans (lineOf_knownCauses r e.pending)⟩
  case channel => rintro rfl; exact Env.write_channel r e v

/-- The main context's next step is the write of `v` to `l`. -/
theorem runMain_writeRow_nextStep {s : State} (h : NextStep s) {l : Loc} (hl : l.inRange = true) (v : Byte) (i : Instr) :
    ∃ t : State, runMain i (writeRow l v) s = .next t ∧ t.result = ⟨.ok, .none⟩ ∧
      t.bus = s.bus ++ [⟨.main, .write, l, v, wireWrite s.par l v⟩] ∧ WriteEffects s.par.reg l v s.env t.env :=
  ⟨((s.setAgenda []).afterBusWrite .main l v).finish .ok .none, runMain_runs h.1 (Runs.writeRow hl (h.mainWrite hl v)),
    rfl, rfl, Env.write_effects (Params.reg_wf h.2.2.2) (s.setAgenda []).env hl v⟩

/-- Settles O6: the row is one write at its location; what it does there is `Env.write_effects`. -/
theorem busWrites : Obligations.BusWrites := by
  refine ⟨fun s v ⟨hq, hidle, _⟩ => ⟨fun a ha => ?shortAtRest, fun a ha => ?longAtRest⟩, ?short, ?long⟩
  case shortAtRest =>
    exact runMain_runs hidle (Runs.writeRow (shortLoc_inRange ha) (Runs.mainWrite v hq (shortLoc_inRange ha)))
  case longAtRest =>
    exact runMain_runs hidle (Runs.writeRow (longLoc_inRange ha) (Runs.mainWrite v hq (longLoc_inRange ha)))
  case short =>
    intro s a v hs ha
    obtain ⟨t, hexec, hresult, hbus, heffects⟩ := runMain_writeRow_nextStep hs (shortLoc_inRange ha) v (.swr a v)
    exact ⟨t, _, hexec, hresult, hbus, shortWriteByte_toNat s.par ha, heffects⟩
  case long =>
    intro s a v hs ha
    obtain ⟨t, hexec, hresult, hbus, heffects⟩ := runMain_writeRow_nextStep hs (longLoc_inRange ha) v (.lwr a v)
    exact ⟨t, _, _, hexec, hresult, hbus, longAddrByte0_toNat_of_lt ha, longAddrByte1_toNat a s.par.longDirWr, heffects⟩

end Sys2Proof.Machine

/-! # A well-formed map is never refused (40 R105, 20 R62)

Every location that an operation computes from a well-formed map is in range. For the main context `InMap x` says so: `x`
ends with no `E_BAD_BUS_ADDR` and reports no reply refused with it. For the interrupt context, whose codes nobody sees,
`Traces p x T` says that `x` runs to its end, unless stuck, and that `T` holds of the transactions it leaves. -/

namespace Sys2Proof.Machine

/-- Every register of a well-formed map is a location that exists. -/
theorem reg_inRange {p : Params} (hp : p.wf = true) {l : Loc}
    (hl : l ∈ [p.reg.softrst, p.reg.rxflush, p.reg.sadrl, p.reg.sadrh, p.reg.panl, p.reg.panh, p.reg.rxmcr,
      p.reg.txmcr, p.reg.order, p.reg.intcon, p.reg.intstat, p.reg.txncon, p.reg.txstat, p.reg.rxctl, p.reg.rfctl,
      p.reg.channel, p.reg.rfstate] := by simp) : l.inRange = true :=
  (RegMap.ranges (Params.reg_wf hp)).1 l hl

/-! ## Operations that stay in the map -/

/-- The configuration satisfies its constraints, and none of the events put out after `out` reports a reply refused for
its address. -/
structure MapHolds (out : List OutEvent) (s : State) : Prop where
  wf : s.par.wf = true
  noRefusal : ∃ new, s.out = out ++ new ∧ OutEvent.replyRefused .badBusAddr ∉ new

namespace MapHolds

theorem start {s : State} (hp : s.par.wf = true) : MapHolds s.out s := ⟨hp, [], (List.append_nil _).symm, by simp⟩

theorem congr {out : List OutEvent} {s t : State} (h : MapHolds out s) (hpar : t.par = s.par) (hout : t.out = s.out) :
    MapHolds out t := ⟨hpar ▸ h.wf, hout ▸ h.noRefusal⟩

theorem emit {out : List OutEvent} {s : State} (h : MapHolds out s) {e : OutEvent}
    (he : e ≠ .replyRefused .badBusAddr) : MapHolds out (s.emit e) := by
  obtain ⟨hwf, new, hnew, hno⟩ := h
  refine ⟨hwf, new ++ [e], ?_, ?_⟩
  · rw [← List.append_assoc, ← hnew]; rfl
  · simpa using ⟨hno, he.symm⟩

end MapHolds

/-- An early end with a code that is not the address's. -/
def EndsInMap (out : List OutEvent) (e : Raise) (t : State) : Prop :=
  ∀ c, e = .code c → c ≠ .badBusAddr ∧ MapHolds out t

/-- With a well-formed map the operation neither ends with `E_BAD_BUS_ADDR` nor reports a reply refused with it. -/
def InMap {α : Type} (x : Op α) : Prop := ∀ out, Triple (MapHolds out) x (fun _ => MapHolds out) (EndsInMap out)

namespace InMap

theorem bind {α β : Type} {x : Op α} {k : α → Op β} (hx : InMap x) (hk : ∀ a, InMap (k a)) : InMap (x >>= k) :=
  fun out => Triple.bind (hx out) fun a => hk a out

theorem pure {α : Type} (a : α) : InMap (pure a : Op α) := fun _ _ h => h
theorem view {α : Type} (f : State → α) : InMap (Op.view f) := fun _ _ h => h

/-- The configuration that is looked at satisfies its constraints. -/
theorem viewPar {α : Type} {k : Params → Op α} (hk : ∀ p, p.wf = true → InMap (k p)) :
    InMap (Op.view (·.par) >>= k) :=
  fun out => Triple.view_fact (φ := (·.wf = true)) (fun _ h => h.wf) fun p hp => hk p hp out

theorem raise {α : Type} {c : Code} (hc : c ≠ .badBusAddr := by decide) : InMap (Op.raise c : Op α) := by
  intro out s hs c' h
  cases h
  exact ⟨hc, hs⟩

theorem require {b : Bool} {c : Code} (hc : c ≠ .badBusAddr := by decide) : InMap (Op.require b c) := by
  cases b with
  | false => exact fun out s hs => raise (α := Unit) hc out s hs
  | true => exact pure ()

/-- A test that is passed holds in the rest. -/
theorem requireThen {α : Type} {b : Bool} {c : Code} {k : Unit → Op α} (hk : b = true → InMap (k ()))
    (hc : c ≠ .badBusAddr := by decide) : InMap (Op.require b c >>= k) := by
  cases b with
  | false => exact fun out s hs => raise (α := α) hc out s hs
  | true => exact hk rfl

theorem ite {α : Type} (b : Prop) [Decidable b] {x y : Op α} (hx : InMap x) (hy : InMap y) :
    InMap (if b then x else y) := by split <;> assumption

/-- An operation that no code ends and that puts nothing out. -/
theorem of_unrefused {α : Type} {w : Allowance} {x : Op α} (hx : Unrefused x) (ht : Touches w x)
    (hw : w.out = false := by rfl) : InMap x := by
  intro out s hs
  have hx := hx s trivial
  have ht := ht s
  cases hxs : x s with
  | ok a t => rw [hxs] at ht; exact hs.congr ht.grows.par (ht.out hw)
  | error e t =>
    rw [hxs] at hx
    obtain ⟨f, rfl⟩ := hx
    exact nofun

theorem update {f : State → State} (hf : ∀ s, (f s).par = s.par ∧ (f s).out = s.out) : InMap (Op.update f) :=
  fun _ s hs => hs.congr (hf s).1 (hf s).2

theorem elem {α : Type} {x : Op α} (hx : InMap x) : InMap (elem x) :=
  bind (of_unrefused Unrefused.boundary Touches.boundary) fun _ => bind (update fun _ => ⟨rfl, rfl⟩) fun _ => hx

theorem mainUpdate {f : State → State} (hf : ∀ s, (f s).par = s.par ∧ (f s).out = s.out) : InMap (mainUpdate f) :=
  elem (update hf)

/-! ### Transactions -/

theorem mainRead {l : Loc} (hl : l.inRange = true) : InMap (mainRead l) := by
  refine elem fun out s hs => ?_
  by_cases hstuck : s.env.stuckAfter = some 0
  · rw [show busRead .main l s = .error (.fault (.busStuck .main)) s by simp [busRead, hl, hstuck]]
    exact nofun
  · rw [show busRead .main l s = .ok _ (s.afterBusRead .main l) by simp [busRead, hl, hstuck]; rfl]
    exact hs.congr rfl rfl

theorem mainWrite {l : Loc} (hl : l.inRange = true) (v : Byte) : InMap (mainWrite l v) :=
  of_unrefused (Unrefused.mainWrite hl v) (Touches.mainWrite l v)

theorem wrPair {lo hi : Loc} (hlo : lo.inRange = true) (hhi : hi.inRange = true) (v : Half) : InMap (wrPair lo hi v) :=
  bind (mainWrite hlo _) fun _ => mainWrite hhi _

theorem rdPair {lo hi : Loc} (hlo : lo.inRange = true) (hhi : hi.inRange = true) : InMap (rdPair lo hi) :=
  bind (mainRead hlo) fun _ => bind (mainRead hhi) fun _ => pure _

theorem wrFifo {b : Loc} {n : Nat} (hb : b.windowInRange n = true) (off : Nat) (vs : List Byte)
    (hn : off + vs.length ≤ n) : InMap (wrFifo b off vs) :=
  of_unrefused (Unrefused.wrFifo hb off vs hn) (Touches.wrFifo b off vs)

theorem pollUntil {l : Loc} (hl : l.inRange = true) (m v : Byte) (k : Nat) : InMap (pollUntil l m v k) := by
  induction k with
  | zero => exact pure _
  | succ k ih => exact bind (mainRead hl) fun _ => ite _ (pure _) ih

theorem requireReady : InMap requireReady :=
  bind (view _) fun _ => require

/-! ### The radio driver (41 R111 to R127) -/

theorem opReset : InMap opReset :=
  bind (view _) fun _ => bind (mainUpdate fun _ => ⟨rfl, rfl⟩) fun _ => bind (mainUpdate fun _ => ⟨rfl, rfl⟩) fun _ =>
    bind (mainUpdate fun _ => ⟨rfl, rfl⟩) fun _ => bind (mainUpdate fun _ => ⟨rfl, rfl⟩) fun _ =>
    bind (mainUpdate fun _ => ⟨rfl, rfl⟩) fun _ => pure _

theorem hwFault {α : Type} {c : Code} (hc : c ≠ .badBusAddr := by decide) : InMap (hwFault c : Op α) :=
  bind (mainUpdate fun _ => ⟨rfl, rfl⟩) fun _ => raise hc

theorem writeEadr {b : Loc} {n : Nat} (hb : b.windowInRange n = true) (off : Nat) (vs : List Byte)
    (hn : off + vs.length ≤ n) : InMap (writeEadr b off vs) := by
  induction vs generalizing off with
  | nil => exact pure _
  | cons v vs ih =>
    simp only [List.length_cons] at hn
    exact bind (mainWrite (locPlus_inRange hb (by omega)) v) fun _ => ih (off + 1) (by omega)

theorem readEadr {b : Loc} (hb : b.windowInRange 8 = true) (is : List (Fin 8)) : InMap (readEadr b is) := by
  induction is with
  | nil => exact pure _
  | cons i is ih =>
    exact bind (mainRead (locPlus_inRange hb i.isLt)) fun _ => bind (mainUpdate fun _ => ⟨rfl, rfl⟩) fun _ => ih

theorem loadExtendedAddress {b : Loc} (hb : b.windowInRange 8 = true) : InMap (loadExtendedAddress b) :=
  bind (view _) fun c => ite _ (writeEadr hb _ _ (by simp))
    (bind (readEadr hb _) fun _ => mainUpdate fun _ => ⟨rfl, rfl⟩)

theorem writeCal {ws : List (Loc × Byte)} (h : ∀ w ∈ ws, w.1.inRange = true) : InMap (writeCal ws) := by
  induction ws with
  | nil => exact pure _
  | cons w ws ih =>
    obtain ⟨hw, hws⟩ := List.forall_mem_cons.1 h
    exact bind (mainWrite hw _) fun _ => ih hws

section WellFormed
variable {p : Params} (hp : p.wf = true)
include hp

theorem tuneChannel (n : Byte) : InMap (tuneChannel p.reg n) :=
  bind (mainWrite (reg_inRange hp) _) fun _ => bind (mainWrite (reg_inRange hp) _) fun _ =>
    bind (mainWrite (reg_inRange hp) _) fun _ => mainUpdate fun _ => ⟨rfl, rfl⟩

theorem initConfigure : InMap (initConfigure p) :=
  have ⟨_, headr, _⟩ := RegMap.ranges (Params.reg_wf hp)
  bind (mainWrite (reg_inRange hp) _) fun _ => bind (wrPair (reg_inRange hp) (reg_inRange hp) _) fun _ =>
    bind (mainUpdate fun _ => ⟨rfl, rfl⟩) fun _ => bind (wrPair (reg_inRange hp) (reg_inRange hp) _) fun _ =>
    bind (mainUpdate fun _ => ⟨rfl, rfl⟩) fun _ => bind (loadExtendedAddress headr) fun _ =>
    writeCal (Params.calSeq_inRange hp)

theorem initComplete : InMap (initComplete p) :=
  bind (mainWrite (reg_inRange hp) _) fun _ => bind (tuneChannel hp _) fun _ => mainUpdate fun _ => ⟨rfl, rfl⟩

theorem unslot : InMap (unslot p.reg) :=
  bind (mainRead (reg_inRange hp)) fun _ => bind (mainWrite (reg_inRange hp) _) fun _ => mainWrite (reg_inRange hp) _

theorem writeHeader (hdr len : Nat) (fcf : Half) : InMap (writeHeader p.reg.txfifo hdr len fcf) :=
  have ⟨_, _, htx, _⟩ := RegMap.ranges (Params.reg_wf hp)
  of_unrefused (Unrefused.writeHeader htx (by decide) hdr len fcf) (Touches.writeHeader _ hdr len fcf)

/-- A frame within the length bounds stays within the TX FIFO (41 R125, 20 R62). -/
theorem writeFrame {h : HdrShape} (fcf : Half) {payload : List Byte}
    (hlen : lengthOk (hdrLen h) payload.length = true) : InMap (writeFrame p h fcf payload) := by
  obtain ⟨-, -, htx, -⟩ := RegMap.ranges (Params.reg_wf hp)
  obtain ⟨-, hlen⟩ := (lengthOk_iff _ _).1 hlen
  simp only [hdrLen] at hlen
  refine bind (writeHeader hp _ _ _) fun _ => bind (view _) fun r => bind (wrFifo htx _ _ ?dst) fun _ =>
    bind (view _) fun c => bind (wrFifo htx _ _ ?src) fun _ => bind (wrFifo htx _ _ ?payload) fun _ =>
    bind (mainWrite (reg_inRange hp) _) fun _ => elem (update fun _ => ⟨rfl, rfl⟩)
  case dst =>
    have := List.length_take_le h.dl r.src
    omega
  case src =>
    have := srcAddr_length_le c h.sl
    omega
  case payload =>
    simp only [hdrLen]
    omega

theorem sendMasked {h : HdrShape} (fcf : Half) {payload : List Byte}
    (hlen : lengthOk (hdrLen h) payload.length = true) : InMap (sendMasked p h fcf payload) :=
  bind (elem (update fun _ => ⟨rfl, rfl⟩)) fun _ => bind (view _) fun _ =>
    ite _ (bind (elem (update fun _ => ⟨rfl, rfl⟩)) fun _ => raise) (writeFrame hp fcf hlen)

end WellFormed

theorem opInit : InMap opInit :=
  bind (view _) fun _ => requireThen fun _ => viewPar fun _ hp => bind (mainUpdate fun _ => ⟨rfl, rfl⟩) fun _ =>
    bind (mainWrite (reg_inRange hp) _) fun _ => bind (pollUntil (reg_inRange hp) _ _ _) fun _ =>
    ite _ (bind (initConfigure hp) fun _ => bind (pollUntil (reg_inRange hp) _ _ _) fun _ =>
      ite _ (bind (initComplete hp) fun _ => pure _) hwFault) hwFault

theorem opSend (fcf : Half) (payload : List Byte) : InMap (opSend fcf payload) := by
  refine bind requireReady fun _ => viewPar fun p hp => ?_
  cases hdrShape fcf with
  | none => exact raise
  | some h => exact requireThen (sendMasked hp fcf)

theorem opSend16Ack (dest : Half) (payload : List Byte) : InMap (opSend16Ack dest payload) := by
  refine bind requireReady fun _ => requireThen fun hlen => viewPar fun p hp => ?_
  obtain ⟨-, -, htx, -⟩ := RegMap.ranges (Params.reg_wf hp)
  have hlen : payload.length ≤ 116 := of_decide_eq_true hlen
  exact bind (elem (update fun _ => ⟨rfl, rfl⟩)) fun _ => bind (writeHeader hp _ _ _) fun _ =>
    bind (wrFifo htx 7 (leBytes dest) (show 7 + 2 ≤ 129 by decide)) fun _ => bind (view _) fun c =>
    bind (wrFifo htx 9 (leBytes c.short) (show 9 + 2 ≤ 129 by decide)) fun _ =>
    bind (wrFifo htx _ _ (by omega)) fun _ => bind (mainWrite (reg_inRange hp) _) fun _ =>
    elem (update fun _ => ⟨rfl, rfl⟩)

/-! ### The protocol decoder and the event pump (43 R161 to R176, 42 R146 to R149) -/

theorem mainEmit {e : OutEvent} (he : e ≠ .replyRefused .badBusAddr) : InMap (mainEmit e) :=
  elem fun _ _ hs => hs.emit he

/-- The code given to the invoker is not the address's. -/
theorem attempt {x : Op Unit} (hx : InMap x) (out : List OutEvent) :
    Triple (MapHolds out) (Op.attempt x) (fun c s => c ≠ .badBusAddr ∧ MapHolds out s) (EndsInMap out) := by
  intro s hs
  have h := hx out s hs
  unfold Op.attempt
  cases hxs : x s with
  | ok a t => rw [hxs] at h; exact ⟨nofun, h⟩
  | error e t =>
    rw [hxs] at h
    cases e with
    | code c => exact h c rfl
    | fault f => exact nofun

/-- A refusal of `send` is reported with its code, which is not the address's (43 R173). -/
theorem opReply (fcf : Half) (body : List Byte) : InMap (opReply fcf body) := by
  refine fun out => Triple.bind ((opSend fcf body).attempt out) fun c => Triple.of_fact fun hc => ?_
  exact ite _ (pure _) (mainEmit (by simpa using hc)) out

theorem nextLs : InMap nextLs :=
  elem (bind (view _) fun _ => bind (update fun _ => ⟨rfl, rfl⟩) fun _ => pure _)

theorem mutateDev (f : DeviceRecord → DeviceRecord) : InMap (mutateDev f) := mainUpdate fun _ => ⟨rfl, rfl⟩
theorem forwardFrame (tag : Tag) : InMap (forwardFrame tag) := bind (view _) fun _ => mainEmit nofun
theorem opM07 (p1 : Byte) : InMap (opM07 p1) := bind (mutateDev _) fun _ => bind (view _) fun _ => opReply _ _
theorem opM01A : InMap opM01A := bind (mutateDev _) fun _ => opReply _ _
theorem opM13 (p1 : Byte) : InMap (opM13 p1) := bind (mutateDev _) fun _ => bind nextLs fun _ => opReply _ _

theorem opM08 (p2 : Byte) : InMap (opM08 p2) :=
  bind (mutateDev _) fun _ => bind nextLs fun _ => bind (view _) fun _ => opReply _ _

theorem opM01D (p1 p2 : Byte) : InMap (opM01D p1 p2) :=
  bind (mutateDev _) fun _ => bind nextLs fun _ => bind (opReply _ _) fun _ => forwardFrame _

theorem opM02 (p2 : Byte) : InMap (opM02 p2) :=
  bind (mutateDev _) fun _ => bind nextLs fun _ => bind (view _) fun _ => bind (opReply _ _) fun _ => forwardFrame _

theorem opMalformed : InMap opMalformed := bind (view _) fun _ => ite _ (forwardFrame _) (pure _)

theorem runAction (i : Instr) : InMap (runAction i) := by
  cases i with
  | m07 p1 => exact opM07 _
  | m01a => exact opM01A
  | m13 p1 => exact opM13 _
  | m08 p2 => exact opM08 _
  | m01d p1 p2 => exact opM01D _ _
  | m02 p2 => exact opM02 _
  | m0a p1 => exact mutateDev _
  | mxx t => exact forwardFrame _
  | malformed => exact opMalformed
  | _ => exact pure _

theorem opOnReceive : InMap opOnReceive :=
  bind (mainUpdate fun _ => ⟨rfl, rfl⟩) fun _ => bind (view _) fun _ => runAction _

theorem opOnTxComplete : InMap opOnTxComplete := bind (elem (view _)) fun _ => mainEmit nofun

theorem testClearRx : InMap testClearRx :=
  elem (bind (view _) fun _ => bind (update fun _ => ⟨rfl, rfl⟩) fun _ => pure _)

theorem testClearTx : InMap testClearTx :=
  elem (bind (view _) fun _ => bind (update fun _ => ⟨rfl, rfl⟩) fun _ => pure _)

theorem opPoll : InMap opPoll :=
  bind testClearRx fun _ => bind (ite _ opOnReceive (pure _)) fun _ => bind testClearTx fun _ =>
    ite _ opOnTxComplete (pure _)

/-- An operation without a value of its own, as the body of a row. -/
theorem thenNone {x : Op Unit} (hx : InMap x) : InMap (do x; Pure.pure Value.none) := bind hx fun _ => pure _

end InMap

/-! ## The rows of the main context -/

/-- The rows that are a transaction themselves, at an address of the invoker's (40 R100). -/
def isBusRow : Instr → Bool
  | .srd _ => true
  | .swr _ _ => true
  | .lrd _ => true
  | .lwr _ _ => true
  | _ => false

/-- Every other row of the main context runs an operation that stays in the map. -/
theorem InMap.exists_exec_eq_runMain (i : Instr) (hbus : isBusRow i = false) (hirq : i.isIrqRow = false) :
    ∃ x : Op Value, (∀ s, exec i s = runMain i x s) ∧ InMap x := by
  cases i with
  | srd a => cases hbus
  | swr a v => cases hbus
  | lrd a => cases hbus
  | lwr a v => cases hbus
  | irq => cases hirq
  | rxpath => cases hirq
  | txpath => cases hirq
  | reset => exact ⟨_, fun _ => rfl, opReset⟩
  | init => exact ⟨_, fun _ => rfl, opInit⟩
  | setChannel n =>
    exact ⟨_, fun _ => rfl, bind requireReady fun _ => requireThen fun _ => viewPar fun _ hp =>
      thenNone (tuneChannel hp _)⟩
  | setPan v =>
    exact ⟨_, fun _ => rfl, bind requireReady fun _ => viewPar fun _ hp =>
      bind (wrPair (reg_inRange hp) (reg_inRange hp) _) fun _ => thenNone (mainUpdate fun _ => ⟨rfl, rfl⟩)⟩
  | getPan =>
    exact ⟨_, fun _ => rfl, bind requireReady fun _ => viewPar fun _ hp =>
      bind (rdPair (reg_inRange hp) (reg_inRange hp)) fun _ => pure _⟩
  | setShortAddress a =>
    exact ⟨_, fun _ => rfl, bind requireReady fun _ => viewPar fun _ hp =>
      bind (wrPair (reg_inRange hp) (reg_inRange hp) _) fun _ => thenNone (mainUpdate fun _ => ⟨rfl, rfl⟩)⟩
  | getShortAddress =>
    exact ⟨_, fun _ => rfl, bind requireReady fun _ => viewPar fun _ hp =>
      bind (rdPair (reg_inRange hp) (reg_inRange hp)) fun _ => pure _⟩
  | setPromiscuous b =>
    exact ⟨_, fun _ => rfl, bind requireReady fun _ => viewPar fun _ hp => bind (mainRead (reg_inRange hp)) fun _ =>
      bind (mainWrite (reg_inRange hp) _) fun _ => thenNone (mainUpdate fun _ => ⟨rfl, rfl⟩)⟩
  | setPanController b =>
    exact ⟨_, fun _ => rfl, bind requireReady fun _ => viewPar fun _ hp => bind (mainRead (reg_inRange hp)) fun _ =>
      bind (mainWrite (reg_inRange hp) _) fun _ => bind (ite _ (unslot hp) (pure _)) fun _ =>
      thenNone (mainUpdate fun _ => ⟨rfl, rfl⟩)⟩
  | rxDisable =>
    exact ⟨_, fun _ => rfl, bind requireReady fun _ => viewPar fun _ hp => thenNone (mainWrite (reg_inRange hp) _)⟩
  | rxEnable =>
    exact ⟨_, fun _ => rfl, bind requireReady fun _ => viewPar fun _ hp => thenNone (mainWrite (reg_inRange hp) _)⟩
  | send fcf payload => exact ⟨_, fun _ => rfl, thenNone (opSend _ _)⟩
  | send16Ack dest payload => exact ⟨_, fun _ => rfl, thenNone (opSend16Ack _ _)⟩
  | poll => exact ⟨_, fun _ => rfl, thenNone opPoll⟩
  | getRxRecord => exact ⟨_, fun _ => rfl, bind (elem (view _)) fun _ => pure _⟩
  | getTxRecord => exact ⟨_, fun _ => rfl, bind (elem (view _)) fun _ => pure _⟩
  | onReceive => exact ⟨_, fun _ => rfl, thenNone opOnReceive⟩
  | onTxComplete => exact ⟨_, fun _ => rfl, thenNone opOnTxComplete⟩
  | m07 p1 => exact ⟨_, fun _ => rfl, thenNone (opM07 _)⟩
  | m01a => exact ⟨_, fun _ => rfl, thenNone opM01A⟩
  | m13 p1 => exact ⟨_, fun _ => rfl, thenNone (opM13 _)⟩
  | m08 p2 => exact ⟨_, fun _ => rfl, thenNone (opM08 _)⟩
  | m01d p1 p2 => exact ⟨_, fun _ => rfl, thenNone (opM01D _ _)⟩
  | m02 p2 => exact ⟨_, fun _ => rfl, thenNone (opM02 _)⟩
  | m0a p1 => exact ⟨_, fun _ => rfl, thenNone (mutateDev _)⟩
  | mxx t => exact ⟨_, fun _ => rfl, thenNone (forwardFrame _)⟩
  | malformed => exact ⟨_, fun _ => rfl, thenNone opMalformed⟩

theorem runMain_inMap {i : Instr} {x : Op Value} (hx : InMap x) {s t : State} (hp : s.par.wf = true)
    (h : runMain i x s = .next t) : t.result.code ≠ .badBusAddr ∧ MapHolds s.out t := by
  have hx := hx s.out (s.setMainCtl (.running i 0)) ((MapHolds.start hp).congr rfl rfl)
  unfold runMain at h
  cases hm : s.mainCtl with
  | running op k => rw [hm] at h; cases h
  | idle =>
    rw [hm] at h
    simp only at h
    cases hxs : x (s.setMainCtl (.running i 0)) with
    | ok v u => rw [hxs] at h hx; cases h; exact ⟨nofun, hx.congr rfl rfl⟩
    | error e u =>
      rw [hxs] at h hx
      cases e with
      | code c => cases h; exact ⟨(hx c rfl).1, (hx c rfl).2.congr rfl rfl⟩
      | fault f => cases h

/-- A row that is no transaction itself is not refused its address. -/
theorem exec_code_ne_badBusAddr {i : Instr} (hbus : isBusRow i = false) {s t : State} (hp : s.par.wf = true)
    (hs : s.result.code ≠ .badBusAddr) (h : exec i s = .next t) : t.result.code ≠ .badBusAddr := by
  cases hi : i.isIrqRow with
  | true =>
    obtain ⟨hf, -⟩ := exec_irqRow_frame hi h
    rw [hf]
    exact hs
  | false =>
    obtain ⟨x, he, hx⟩ := InMap.exists_exec_eq_runMain i hbus hi
    exact (runMain_inMap hx hp (he s ▸ h)).1

/-- The rows that put something out are rows of the main context, and no transactions. -/
theorem mayEmit_main {i : Instr} (h : i.mayEmit = true) : isBusRow i = false ∧ i.isIrqRow = false := by
  cases i with
  | srd a => cases h
  | swr a v => cases h
  | lrd a => cases h
  | lwr a v => cases h
  | irq => cases h
  | rxpath => cases h
  | txpath => cases h
  | _ => exact ⟨rfl, rfl⟩

/-- No row reports a reply refused for its address. -/
theorem exec_mapHolds {i : Instr} {s t : State} (hp : s.par.wf = true) (h : exec i s = .next t) :
    MapHolds s.out t := by
  cases hm : i.mayEmit with
  | true =>
    obtain ⟨hbus, hirq⟩ := mayEmit_main hm
    obtain ⟨x, he, hx⟩ := InMap.exists_exec_eq_runMain i hbus hirq
    exact (runMain_inMap hx hp (he s ▸ h)).2
  | false =>
    have hw := exec_within h
    exact (MapHolds.start hp).congr hw.grows.par (hw.out hm)

/-! ## The transactions of an interrupt run (42 R141 to R144) -/

/-- Under the configuration `p`, the operation ends early only stuck; otherwise `T` holds of its value and of the
transactions that it leaves on the trace. -/
def Traces {α : Type} (p : Params) (x : Op α) (T : α → List BusEvent → Prop) : Prop :=
  ∀ s, s.par = p → match x s with
    | .ok a t => t.par = p ∧ ∃ evs, t.bus = s.bus ++ evs ∧ T a evs
    | .error e _ => ∃ f, e = .fault f

/-- The event a read of the interrupt context leaves. -/
def irqReadEvent (p : Params) (l : Loc) (v : Byte) : BusEvent := ⟨.irq, .read, l, v, wireRead p l⟩

/-- The event a write of the interrupt context leaves. -/
def irqWriteEvent (p : Params) (l : Loc) (v : Byte) : BusEvent := ⟨.irq, .write, l, v, wireWrite p l v⟩

/-- What comes before a step of the interrupt context is the environment's. -/
theorem runBoundary_ok (s : State) : ∃ t, runBoundary s = .ok () t ∧ EnvFrame s t := by
  unfold runBoundary
  cases s.env.runMoves with
  | nil => exact ⟨s, rfl, EnvFrame.refl s⟩
  | cons ms rest =>
    exact ⟨_, rfl, EnvFrame.trans (t := s.setEnv { s.env with runMoves := rest }) rfl (foldl_envMove_frame ms _)⟩

namespace Traces

section
variable {p : Params} {α β : Type}

theorem bind {x : Op α} {k : α → Op β} {T : α → List BusEvent → Prop} {U : α → β → List BusEvent → Prop}
    {V : β → List BusEvent → Prop} (hx : Traces p x T) (hk : ∀ a, Traces p (k a) (U a))
    (hV : ∀ a b xs ys, T a xs → U a b ys → V b (xs ++ ys)) : Traces p (x >>= k) V := by
  intro s hs
  have hx := hx s hs
  rw [op_bind]
  cases hxs : x s with
  | error e t => rw [hxs] at hx; exact hx
  | ok a t =>
    rw [hxs] at hx
    obtain ⟨ht, xs, hxs, hT⟩ := hx
    have hk := hk a t ht
    simp only
    cases hks : k a t with
    | error e u => rw [hks] at hk; exact hk
    | ok b u =>
      rw [hks] at hk
      obtain ⟨hu, ys, hys, hU⟩ := hk
      exact ⟨hu, xs ++ ys, by rw [hys, hxs, List.append_assoc], hV a b xs ys hT hU⟩

theorem imp {x : Op α} {T U : α → List BusEvent → Prop} (hx : Traces p x T) (h : ∀ a evs, T a evs → U a evs) :
    Traces p x U := by
  intro s hs
  have hx := hx s hs
  cases hxs : x s with
  | error e t => rw [hxs] at hx; exact hx
  | ok a t =>
    rw [hxs] at hx
    obtain ⟨ht, evs, hevs, hT⟩ := hx
    exact ⟨ht, evs, hevs, h a evs hT⟩

theorem pure (a : α) : Traces p (pure a : Op α) fun _ evs => evs = [] :=
  fun s hs => ⟨hs, [], (List.append_nil s.bus).symm, rfl⟩

/-- The configuration that is looked at is `p`. -/
theorem viewPar {k : Params → Op α} {T : α → List BusEvent → Prop} (hk : Traces p (k p) T) :
    Traces p (Op.view (·.par) >>= k) T := by
  intro s hs
  have hk := hk s hs
  rw [op_bind_ok (op_view _ s), hs]
  exact hk

theorem ite {b : Bool} {x : Op Unit} {T : List BusEvent → Prop} (hx : Traces p x fun _ => T) :
    Traces p (if b then x else Pure.pure ()) fun _ evs => if b then T evs else evs = [] := by
  cases b with
  | false => exact pure ()
  | true => exact hx

/-- An elementary step leaves what the step itself leaves. -/
theorem irqElem {x : Op α} {T : α → List BusEvent → Prop} (hx : Traces p x T) : Traces p (irqElem x) T := by
  intro s hs
  obtain ⟨t, ht, hf⟩ := runBoundary_ok s
  have hpar : t.par = p := by rw [hf]; exact hs
  have hbus : t.bus = s.bus := by rw [hf]
  have hx := hx (t.setIrqCtl t.irqCtl.tick) hpar
  unfold Machine.irqElem
  rw [op_bind_ok ht, op_bind_ok (op_update _ _)]
  rwa [State.setIrqCtl_bus, hbus] at hx

theorem irqUpdate {f : State → State} (hf : ∀ s, (f s).par = s.par ∧ (f s).bus = s.bus) :
    Traces p (Machine.irqElem (Op.update f)) fun _ evs => evs = [] :=
  irqElem fun s hs => ⟨(hf s).1.trans hs, [], by rw [List.append_nil, (hf s).2], rfl⟩

theorem irqRead {l : Loc} (hl : l.inRange = true) :
    Traces p (irqRead l) fun v evs => evs = [irqReadEvent p l v] := by
  refine irqElem fun s hs => ?_
  subst hs
  by_cases hstuck : s.env.stuckAfter = some 0
  · simp [busRead, hl, hstuck]
  · simp [busRead, hl, hstuck, State.afterBusRead, State.pushBus, State.setEnv, irqReadEvent]

theorem irqWrite {l : Loc} (hl : l.inRange = true) (v : Byte) :
    Traces p (irqWrite l v) fun _ evs => evs = [irqWriteEvent p l v] := by
  refine irqElem fun s hs => ?_
  subst hs
  by_cases hstuck : s.env.stuckAfter = some 0
  · simp [busWrite, hl, hstuck]
  · simp [busWrite, hl, hstuck, State.afterBusWrite, State.pushBus, State.setEnv, irqWriteEvent]

end

end Traces

/-- All transactions are of the interrupt context. -/
abbrev AllIrq (evs : List BusEvent) : Prop := ∀ e ∈ evs, e.ctx = .irq

theorem AllIrq.nil : AllIrq [] := List.forall_mem_nil _
theorem AllIrq.singleton {e : BusEvent} (he : e.ctx = .irq) : AllIrq [e] := List.forall_mem_singleton.2 he

/-- At least `n` transactions of the interrupt context, the last of which restarts reception. -/
structure RxTail (r : RegMap) (n : Nat) (evs : List BusEvent) : Prop where
  length : n ≤ evs.length
  irq : AllIrq evs
  last : ∃ e, evs.getLast? = some e ∧ e.dir = .write ∧ e.loc = r.rxctl ∧ e.data = r.vRxen

namespace RxTail

theorem restart (p : Params) : RxTail p.reg 1 [irqWriteEvent p p.reg.rxctl p.reg.vRxen] where
  length := le_rfl
  irq := AllIrq.singleton rfl
  last := ⟨_, rfl, rfl, rfl, rfl⟩

theorem append {r : RegMap} {n : Nat} {xs ys : List BusEvent} (hxs : AllIrq xs) (h : RxTail r n ys) :
    RxTail r (xs.length + n) (xs ++ ys) where
  length := by rw [List.length_append]; exact Nat.add_le_add_left h.length _
  irq := List.forall_mem_append.2 ⟨hxs, h.irq⟩
  last := by
    obtain ⟨e, hlast, he⟩ := h.last
    exact ⟨e, by simp [hlast], he⟩

theorem mono {r : RegMap} {m n : Nat} {evs : List BusEvent} (h : RxTail r n evs) (hm : m ≤ n) : RxTail r m evs :=
  { h with length := hm.trans h.length }

/-- After the write that stops reception, four transactions that end with its restart make the trace of an `RXPATH`. -/
theorem rxTrace {p : Params} {evs : List BusEvent} (h : RxTail p.reg 4 evs) :
    RxTrace p.reg (irqWriteEvent p p.reg.rxctl p.reg.vRxdis :: evs) := by
  have hall := h.append (xs := [irqWriteEvent p p.reg.rxctl p.reg.vRxdis]) (AllIrq.singleton rfl)
  exact ⟨hall.length, hall.irq, ⟨_, rfl, rfl, rfl, rfl⟩, hall.last⟩

end RxTail

namespace Traces

section
variable {p : Params} {α : Type}

/-- Transactions of the interrupt context before the end of an `RXPATH`. -/
theorem beforeTail {n : Nat} {x : Op α} {k : α → Op Unit} (hx : Traces p x fun _ => AllIrq)
    (hk : ∀ a, Traces p (k a) fun _ => RxTail p.reg n) : Traces p (x >>= k) fun _ => RxTail p.reg n :=
  bind hx hk fun _ _ _ _ hxs hys => (hys.append hxs).mono (Nat.le_add_left n _)

/-- A state update before the end of an `RXPATH`. -/
theorem updateTail {n : Nat} {f : State → State} {k : Unit → Op Unit} (hf : ∀ s, (f s).par = s.par ∧ (f s).bus = s.bus)
    (hk : ∀ u, Traces p (k u) fun _ => RxTail p.reg n) :
    Traces p (Machine.irqElem (Op.update f) >>= k) fun _ => RxTail p.reg n :=
  beforeTail ((irqUpdate hf).imp fun _ _ h => h ▸ AllIrq.nil) hk

/-- One read before the end of an `RXPATH`. -/
theorem readTail {n : Nat} {l : Loc} {k : Byte → Op Unit} (hl : l.inRange = true)
    (hk : ∀ v, Traces p (k v) fun _ => RxTail p.reg n) :
    Traces p (Machine.irqRead l >>= k) fun _ => RxTail p.reg (n + 1) := by
  refine bind (irqRead hl) hk ?_
  rintro v _ _ ys rfl hys
  exact (hys.append (xs := [irqReadEvent p l v]) (AllIrq.singleton rfl)).mono (Nat.add_comm n 1).le

theorem readFifo {b : Loc} {m : Nat} (hb : b.windowInRange m = true) (off n : Nat) (hn : off + n ≤ m) :
    Traces p (readFifo b off n) fun _ => AllIrq := by
  induction n generalizing off with
  | zero => exact (pure _).imp fun _ _ h => h ▸ AllIrq.nil
  | succ n ih =>
    have rest (v : Byte) : Traces p (do let vs ← Machine.readFifo b (off + 1) n; Pure.pure (v :: vs)) fun _ => AllIrq :=
      bind (ih (off + 1) (by omega)) (fun _ => pure _) fun _ _ _ _ hxs hys => by rwa [hys, List.append_nil]
    refine bind (irqRead (locPlus_inRange hb (by omega))) rest ?_
    rintro v _ _ ys rfl hys
    exact List.forall_mem_cons.2 ⟨rfl, hys⟩

end

section
variable {p : Params} (hp : p.wf = true)
include hp

/-- Reception restarts, and the event is counted: the end of a commit (42 R142). -/
theorem restartAndCount : Traces p (do
      Machine.irqWrite p.reg.rxctl p.reg.vRxen
      Machine.irqElem (Op.update fun s => s.setRxEvent (satInc8 s.rxEvent))) fun _ => RxTail p.reg 1 := by
  refine bind (irqWrite (reg_inRange hp) _) (fun _ => irqUpdate fun _ => ⟨rfl, rfl⟩) ?_
  rintro _ _ _ _ rfl rfl
  exact RxTail.restart p

/-- The commit of a frame reads within the RX FIFO window, as its shape is within bounds, and restarts reception. -/
theorem commitFrame {L : Byte} {fcf : Half} {h : RxShape} (hs : rxShape p L.toNat fcf = some h) :
    Traces p (commitFrame p L fcf h) fun _ => RxTail p.reg 1 := by
  obtain ⟨-, -, -, hrx⟩ := RegMap.ranges (Params.reg_wf hp)
  obtain ⟨-, -, hhdr, hL, -, hmax⟩ := rxShape_eq_some hs
  have hread (n : Nat) (hn : n < 130) : (locPlus p.reg.rxfifo n).inRange = true := locPlus_inRange hrx hn
  refine Traces.imp (T := fun _ => RxTail p.reg 6) ?_ fun _ _ h => h.mono (by decide)
  exact readTail (hread 3 (by decide)) fun _ => readTail (hread 4 (by decide)) fun _ =>
    readTail (hread 5 (by decide)) fun _ => beforeTail (readFifo hrx _ _ (by omega)) fun _ =>
    beforeTail (readFifo hrx _ _ (by omega)) fun _ => beforeTail (readFifo hrx _ _ (by omega)) fun _ =>
    readTail (hread _ (by omega)) fun _ => readTail (hread _ (by omega)) fun _ =>
    updateTail (fun _ => ⟨rfl, rfl⟩) fun _ => restartAndCount hp

theorem opRxpath : Traces p opRxpath fun _ => RxTrace p.reg := by
  obtain ⟨-, -, -, hrx⟩ := RegMap.ranges (Params.reg_wf hp)
  refine viewPar (bind (irqWrite (reg_inRange hp) _) (U := fun _ _ => RxTail p.reg 4) (fun _ => ?_) ?_)
  · refine readTail (locPlus_inRange hrx (by decide)) fun L => readTail (locPlus_inRange hrx (by decide)) fun lo =>
      readTail (locPlus_inRange hrx (by decide)) fun hi => ?_
    split
    · exact (irqWrite (reg_inRange hp) _).imp fun _ _ h => h ▸ RxTail.restart p
    · next hs => exact commitFrame hp hs
  · rintro _ _ _ ys rfl hys
    exact hys.rxTrace

theorem opTxpath : Traces p opTxpath fun _ => TxTrace p.reg := by
  refine viewPar (bind (irqRead (reg_inRange hp)) (U := fun _ _ evs => evs = []) (fun _ => ?_) ?_)
  · refine bind (irqUpdate fun _ => ⟨rfl, rfl⟩) (fun _ => irqUpdate fun _ => ⟨rfl, rfl⟩) ?_
    rintro _ _ _ _ rfl rfl
    rfl
  · rintro v _ _ _ rfl rfl
    exact ⟨_, rfl, rfl, rfl, rfl⟩

end

end Traces

/-- The trace of `RXPATH` and then of `TXPATH`, each if its bit of the status byte is set (42 R141). -/
def PathsTrace (r : RegMap) (st : Byte) (evs : List BusEvent) : Prop :=
  ∃ rx tx, evs = rx ++ tx ∧ (if st.getLsbD r.bRxif.val then RxTrace r rx else rx = []) ∧
    (if st.getLsbD r.bTxif.val then TxTrace r tx else tx = [])

/-- The trace of an interrupt run: one read of the status byte, then the paths it selects (42 R141). -/
def IrqTrace (r : RegMap) (evs : List BusEvent) : Prop :=
  ∃ e paths, evs = e :: paths ∧ e.ctx = .irq ∧ e.dir = .read ∧ e.loc = r.intstat ∧ PathsTrace r e.data paths

theorem Traces.opIrq {p : Params} (hp : p.wf = true) : Traces p opIrq fun _ => IrqTrace p.reg := by
  refine viewPar (bind (irqRead (reg_inRange hp)) (U := fun st _ => PathsTrace p.reg st) (fun st => ?_) ?_)
  · exact bind (ite (opRxpath hp)) (fun _ => ite (opTxpath hp)) fun _ _ rx tx hrx htx => ⟨rx, tx, rfl, hrx, htx⟩
  · rintro st _ _ paths rfl hpaths
    exact ⟨_, paths, rfl, rfl, rfl, rfl, hpaths⟩

/-- A path that the interrupt context runs on its own leaves the trace of its operation. -/
theorem runIrqPath_traces {i : Instr} {x : Op Unit} {T : List BusEvent → Prop} {s t : State}
    (hx : Traces s.par x fun _ => T) (h : runIrqPath i x s = .next t) : ∃ evs, t.bus = s.bus ++ evs ∧ T evs := by
  have hx := hx (s.setIrqCtl (.running i 0)) rfl
  unfold runIrqPath at h
  cases hc : s.irqCtl with
  | running op k => rw [hc] at h; cases h
  | idle =>
    rw [hc] at h
    simp only at h
    cases hxs : x (s.setIrqCtl (.running i 0)) with
    | ok a u => rw [hxs] at h hx; cases h; exact hx.2
    | error e u =>
      rw [hxs] at h hx
      obtain ⟨f, rfl⟩ := hx
      cases h

theorem execIrq_traces {s t : State} (hp : s.par.wf = true) (h : execIrq s = .next t) :
    ∃ evs, t.bus = s.bus ++ evs ∧ IrqTrace s.par.reg evs := by
  have hx := Traces.opIrq hp (enterIrq s) rfl
  unfold execIrq irqRun at h
  split at h
  · cases hxs : Machine.opIrq (enterIrq s) with
    | ok a u => rw [hxs] at h hx; cases h; exact hx.2
    | error e u =>
      rw [hxs] at h hx
      obtain ⟨f, rfl⟩ := hx
      cases h
  · cases h

/-- Settles O53: every location an operation computes from a well-formed map is in range, for the main context by `InMap`,
for the interrupt context by `Traces`. -/
theorem wellFormedMapIsNeverRefused : Obligations.WellFormedMapIsNeverRefused := by
  refine ⟨?codes, fun i s t hp h => (exec_mapHolds hp h).noRefusal,
    fun s t hp h => runIrqPath_traces (Traces.opRxpath hp) h, fun s t hp h => runIrqPath_traces (Traces.opTxpath hp) h,
    ?irq⟩
  case codes =>
    intro i s t hp hs hsrd hswr hlrd hlwr h
    have hbus : isBusRow i = false := by
      cases i with
      | srd a => exact absurd rfl (hsrd a)
      | swr a v => exact absurd rfl (hswr a v)
      | lrd a => exact absurd rfl (hlrd a)
      | lwr a v => exact absurd rfl (hlwr a v)
      | _ => rfl
    exact exec_code_ne_badBusAddr hbus hp hs h
  case irq =>
    intro s t hp h
    obtain ⟨evs, hbus, e, paths, rfl, hctx, hdir, hloc, rx, tx, rfl, hrx, htx⟩ := execIrq_traces hp h
    exact ⟨e, rx, tx, hbus, hctx, hdir, hloc, hrx, htx⟩

end Sys2Proof.Machine

/-! # The radio driver (41 R110 to R130)

Alone, every operation of the driver is a chain of `Runs.bind` over the shared operations, so that the state it ends in is
the list of transactions its rule gives, with the shadows set after them. Where the rule sets a shadow between two
transactions, the update moves past the transactions after it, because no transaction looks at a shadow (`writes_update`). -/

namespace Sys2Proof.Machine

/-! ## Admission (41 R110) -/

/-- Outside READY a gated operation ends at its admission. -/
theorem Fails.gated {α : Type} {s : State} (h : s.drv ≠ .ready) (k : Unit → Op α) :
    Fails (Machine.requireReady >>= k) s .notReady s := Fails.bind (Fails.requireReady h)

/-- In service an operation passes its admission and takes the configuration of the state. -/
theorem Runs.inService {α : Type} {k : Params → Op α} {s t : State} {a : α} (hs : InService s)
    (hk : Runs (k s.par) s a t) : Runs (do Machine.requireReady; let p ← Op.view (·.par); k p) s a t :=
  Runs.bind (Runs.requireReady hs.2) (Runs.bind (Runs.view fun _ => rfl) hk)

theorem exec_gated_notReady {i : Instr} (hi : i.gated = true) {s : State} (hidle : s.mainCtl = .idle)
    (h : s.drv ≠ .ready) : exec i s = .next (s.finish .notReady .none) := by
  cases i with
  | setChannel | setPan | getPan | setShortAddress | getShortAddress | setPromiscuous | setPanController | rxDisable
  | rxEnable => exact runMain_fails hidle (Fails.gated h _)
  | send | send16Ack => exact runMain_fails hidle (Fails.bind (Fails.gated h _))
  | _ => cases hi

theorem Fails.opInit {s : State} (h : s.drv = .faulted) : Fails Machine.opInit s .notReady s :=
  Runs.bindFails (Runs.view fun _ => rfl) (Fails.bind (Fails.require (by simp [h])))

/-- Settles O26: admission is the first thing a gated row and the initialisation do. -/
theorem notReadyRefused : Obligations.NotReadyRefused :=
  ⟨fun _ _ hi hidle h => exec_gated_notReady hi hidle h, fun _ hidle h => runMain_fails hidle (Fails.opInit h)⟩

/-! ## Configuration (41 R115 to R123) -/

theorem channelOk_iff (n : Byte) : channelOk n = true ↔ 11 ≤ n.toNat ∧ n.toNat ≤ 26 := by
  rw [channelOk, Bool.and_eq_true, decide_eq_true_eq, decide_eq_true_eq]

/-- The channel register, the reset pulse and the shadow (41 R115, R112 line 10). -/
theorem Runs.tuneChannel {s : State} (hq : Quiet s) (hp : s.par.wf = true) (n : Byte) :
    Runs (Machine.tuneChannel s.par.reg n) s ()
      ((s.writes .main (tuneWrites s.par.reg n)).setCfg { s.cfg with channel := n }) :=
  Runs.bind (Runs.mainWrite _ hq (reg_inRange hp)) <|
    Runs.bind (Runs.mainWrite _ (hq.write _ _ _) (reg_inRange hp)) <|
    Runs.bind (Runs.mainWrite _ ((hq.write _ _ _).write _ _ _) (reg_inRange hp)) <|
    Runs.mainUpdate (hq.writes .main (tuneWrites s.par.reg n)) fun _ => rfl

/-- Settles O18: the operand passes its test, and tuning is `Runs.tuneChannel`. -/
theorem setChannelTunes : Obligations.SetChannelTunes := by
  intro s n hs h11 h26
  have ⟨⟨hq, hidle, hp⟩, hready⟩ := hs
  exact runMain_runs hidle (Runs.bind (Runs.requireReady hready)
    (Runs.bind (Runs.require ((channelOk_iff n).2 ⟨h11, h26⟩)) (Runs.bind (Runs.view fun _ => rfl)
      (Runs.bind (Runs.tuneChannel hq hp n) (Runs.pure _ _)))))

/-- Settles O19: the test of the operand fails before anything is on the wire. -/
theorem badChannelRefused : Obligations.BadChannelRefused := by
  intro s n hidle hready hn
  have hbad : channelOk n = false := Bool.eq_false_iff.2 fun hok => by
    obtain ⟨h11, h26⟩ := (channelOk_iff n).1 hok
    omega
  exact runMain_fails hidle (Runs.bindFails (Runs.requireReady hready) (Fails.bind (Fails.require hbad)))

/-- Settles O21: the two setters are one operation at two pairs of registers (`Runs.setPair`). -/
theorem addressPairsSet : Obligations.AddressPairsSet := fun _ v hs => ⟨exec_setPan hs v, exec_setShortAddress hs v⟩

/-- Settles O22: the two getters are one operation at two pairs of registers (`Runs.getPair`). -/
theorem addressPairsGet : Obligations.AddressPairsGet := fun _ hs => ⟨exec_getPan hs, exec_getShortAddress hs⟩

/-- A read-modify-write puts its bit and leaves the other seven (30 R89). -/
theorem getLsbD_bitPut (t : Byte) (b k : Fin 8) (v : Bool) :
    (bitPut t b v).getLsbD k.val = if k = b then v else t.getLsbD k.val := by
  by_cases hk : k = b
  · subst hk
    cases v <;> simp [bitPut, bitSet, bitClear]
  · have hne : k.val ≠ b.val := Fin.val_ne_of_ne hk
    cases v <;> simp [bitPut, bitSet, bitClear, hk, hne]

/-- The read-modify-write of one bit (30 R89), before the rest of an operation. -/
theorem Runs.putBit {s : State} (hq : Quiet s) {l : Loc} (hl : l.inRange = true) (b : Fin 8) (v : Bool) {α : Type}
    {k : Op α} {a : α} {t : State}
    (hk : Runs k ((s.afterBusRead .main l).afterBusWrite .main l (bitPut (s.env.read s.par.reg l).1 b v)) a t) :
    Runs (do let w ← Machine.mainRead l; Machine.mainWrite l (bitPut w b v); k) s a t :=
  Runs.bind (Runs.mainRead hq hl) (Runs.bind (Runs.mainWrite _ (hq.read _ _) hl) hk)

/-- The last step of a setter: the shadow follows (10 R28). -/
theorem Runs.setShadow {s t : State} (hq : Quiet t) (hcfg : t.cfg = s.cfg) (f : RadioConfig → RadioConfig) :
    Runs (do Machine.mainUpdate fun s => s.setCfg (f s.cfg); Pure.pure Value.none) t .none (t.setCfg (f s.cfg)) := by
  rw [← hcfg]
  exact Runs.bind (Runs.mainUpdate hq fun _ => rfl) (Runs.pure _ _)

/-- Settles O23: the byte written is the byte read with the one bit put. -/
theorem promiscuousSet : Obligations.PromiscuousSet := by
  intro s b hs
  have ⟨⟨hq, hidle, hp⟩, _⟩ := hs
  refine ⟨bitPut (s.env.read s.par.reg s.par.reg.rxmcr).1 s.par.reg.bPromi b, fun k => getLsbD_bitPut _ _ k b, ?_⟩
  exact runMain_runs hidle (Runs.inService hs (Runs.putBit hq (reg_inRange hp) _ b
    (Runs.setShadow ((hq.read _ _).write _ _ _) rfl fun c => { c with promiscuous := b })))

/-- Unslotted CSMA, then both orders off (41 R121). -/
theorem Runs.unslot {s : State} {p : Params} (hq : Quiet s) (hp : p.wf = true) (hpar : s.par = p) :
    Runs (Machine.unslot p.reg) s ()
      (((s.afterBusRead .main p.reg.txmcr).afterBusWrite .main p.reg.txmcr
        (bitClear (s.env.read p.reg p.reg.txmcr).1 p.reg.bSlotted)).afterBusWrite .main p.reg.order p.reg.vOrderOff) := by
  subst hpar
  exact Runs.bind (Runs.mainRead hq (reg_inRange hp)) <|
    Runs.bind (Runs.mainWrite _ (hq.read _ _) (reg_inRange hp)) <|
    Runs.mainWrite _ ((hq.read _ _).write _ _ _) (reg_inRange hp)

/-- Settles O24: with `true` the rest of R121 stands between the controller bit and the shadow. -/
theorem panControllerSet : Obligations.PanControllerSet := by
  intro s hs
  have ⟨⟨hq, hidle, hp⟩, _⟩ := hs
  have hput (w : Byte) := (hq.read .main s.par.reg.rxmcr).write .main s.par.reg.rxmcr w
  refine ⟨?controller, ?plain⟩
  case controller =>
    refine runMain_runs hidle (Runs.inService hs (Runs.putBit hq (reg_inRange hp) s.par.reg.bPancoord true ?_))
    exact Runs.bind (Runs.unslot (hput _) hp (by simp)) (Runs.setShadow (s := s)
      ((((hput _).read _ _).write _ _ _).write _ _ _) (by simp) fun c => { c with panController := true })
  case plain =>
    refine runMain_runs hidle (Runs.inService hs (Runs.putBit hq (reg_inRange hp) s.par.reg.bPancoord false ?_))
    exact Runs.bind (Runs.pure _ _) (Runs.setShadow (hput _) (by simp) fun c => { c with panController := false })

/-- The reception switch put to a value, in service (41 R122, R123). -/
theorem Runs.switchRx {s : State} (hs : InService s) (v : RegMap → Byte) :
    Runs (do
        Machine.requireReady
        let p ← Op.view (·.par)
        Machine.mainWrite p.reg.rxctl (v p.reg)
        Pure.pure Value.none)
      s .none (s.afterBusWrite .main s.par.reg.rxctl (v s.par.reg)) := by
  have ⟨⟨hq, _, hp⟩, _⟩ := hs
  exact Runs.inService hs (Runs.bind (Runs.mainWrite _ hq (reg_inRange hp)) (Runs.pure _ _))

/-- Settles O25: each is one write to the reception switch (`Runs.switchRx`). -/
theorem receptionSwitched : Obligations.ReceptionSwitched := by
  intro s hs
  have ⟨⟨_, hidle, _⟩, _⟩ := hs
  exact ⟨runMain_runs hidle (Runs.switchRx hs RegMap.vRxdis), runMain_runs hidle (Runs.switchRx hs RegMap.vRxen)⟩

/-! ## Reset (41 R111) -/

theorem Quiet.chipReset {s : State} (h : Quiet s) : Quiet (s.setEnv s.env.chipReset) := by
  obtain ⟨hagenda, -, hstuck, hpending⟩ := h
  exact ⟨hagenda, if_pos hpending, hstuck, hpending⟩

/-- The four pin events of the pulse one after the other are its list at once. -/
theorem pushPin_four (s : State) (a b c d : PinEvent) :
    (((s.pushPin a).pushPin b).pushPin c).pushPin d = { s with pins := s.pins ++ [a, b, c, d] } := by
  simp [State.pushPin]

theorem Runs.opReset {s : State} (hq : Quiet s) :
    Runs Machine.opReset s .none { s with
      rstN := true, drv := .cold, env := s.env.chipReset,
      pins := s.pins ++ [.rst false, .waitAtLeast s.par.tResetLow, .rst true, .waitAtLeast s.par.tResetHigh] } := by
  have hreset : Quiet (driveRst false s) := hq.chipReset
  have hpins := pushPin_four (({ s with rstN := true, env := s.env.chipReset } : State).setDrv .cold) (.rst false)
    (.waitAtLeast s.par.tResetLow) (.rst true) (.waitAtLeast s.par.tResetHigh)
  refine Runs.bind (Runs.view fun _ => rfl) (Runs.bind (Runs.mainUpdate hq fun _ => rfl)
    (Runs.bind (Runs.mainUpdate hreset fun _ => rfl) (Runs.bind (Runs.mainUpdate hreset fun _ => rfl)
      (Runs.bind (Runs.mainUpdate hreset fun _ => rfl) (Runs.bind (Runs.mainUpdate hreset fun _ => rfl) ?_)))))
  exact hpins ▸ Runs.pure _ _

/-- Settles O12: the steps of the pulse are `Runs.opReset`. -/
theorem resetPulses : Obligations.ResetPulses := fun _ ⟨hq, hidle, _⟩ => runMain_runs hidle (Runs.opReset hq)

/-! ## Record accessors (41 R128, R129) -/

/-- A look at the state in one elementary step sees the state that the step leaves, whatever came before it; only a stuck
bus keeps it from its end. -/
theorem elem_view_cases {α : Type} (f : State → α) (s : State) :
    (∃ t, elem (Op.view f) s = .ok (f t) t) ∨ ∃ e t, elem (Op.view f) s = .error (.fault e) t := by
  have hframe := drain_frame s.env.agenda s
  unfold elem
  rw [op_bind, show boundary s = drain s.env.agenda s from rfl]
  cases hd : drain s.env.agenda s with
  | ok u t => exact .inl ⟨t.setMainCtl t.mainCtl.tick, rfl⟩
  | error e t =>
    rw [hd] at hframe
    obtain ⟨e, rfl⟩ := hframe
    exact .inr ⟨e, t, rfl⟩

/-- A row that copies `f` of the state in one step and returns `g` of the copy, in any environment: what it returns is of
the state there is at its end. -/
theorem runMain_copy {α : Type} {i : Instr} {f : State → α} {g : α → Value} {s t : State}
    (hf : ∀ s c v, f (State.finish s c v) = f s)
    (h : runMain i (do let r ← elem (Op.view f); pure (g r)) s = .next t) : t.result = ⟨.ok, g (f t)⟩ := by
  unfold runMain at h
  cases hidle : s.mainCtl with
  | running op k => rw [hidle] at h; cases h
  | idle =>
    simp only [hidle] at h
    obtain ⟨u, hu⟩ | ⟨e, u, hu⟩ := elem_view_cases f (s.setMainCtl (.running i 0))
    · rw [op_bind_ok hu] at h
      cases h
      rw [hf]
      rfl
    · rw [op_bind_error hu] at h
      cases h

/-- Alone, the copy is of the state the row starts in, which does not change. -/
theorem Runs.copy {α : Type} {f : State → α} {s : State} (hq : Quiet s) (hf : ∀ c, f (s.setMainCtl c) = f s)
    (g : α → Value) : Runs (do let r ← Machine.elem (Op.view f); Pure.pure (g r)) s (g (f s)) s :=
  Runs.bind (Runs.elem hq (Runs.view hf)) (Runs.pure _ _)

/-- Settles O31: both accessors are one copy (`Runs.copy` alone, `runMain_copy` in any environment). -/
theorem recordsReturned : Obligations.RecordsReturned :=
  ⟨⟨rfl, rfl⟩,
    fun _ ⟨hq, hidle, _⟩ => ⟨runMain_runs hidle (Runs.copy hq (fun _ => rfl) rxRecordValue),
      runMain_runs hidle (Runs.copy hq (fun _ => rfl) txRecordValue)⟩,
    fun _ _ => runMain_copy (g := rxRecordValue) fun _ _ _ => rfl,
    fun _ _ => runMain_copy (g := txRecordValue) fun _ _ _ => rfl⟩

/-! ## Bounded polls (41 R114) -/

/-- The event of a main-context read of `l`. -/
abbrev ReadsAt (l : Loc) (e : BusEvent) : Prop := e.ctx = .main ∧ e.dir = .read ∧ e.loc = l

/-- The trace of a poll: reads that do not match, to the full bound, or fewer than that and then one that matches. -/
theorem polls_trace (l : Loc) (m v : Byte) (k : Nat) (s : State) :
    ∃ missed : List BusEvent, (∀ e ∈ missed, ReadsAt l e ∧ e.data &&& m ≠ v) ∧
      ((s.polls l m v k).1 = false ∧ (s.polls l m v k).2.bus = s.bus ++ missed ∧ missed.length = k ∨
        ∃ e, (s.polls l m v k).1 = true ∧ (s.polls l m v k).2.bus = s.bus ++ (missed ++ [e]) ∧ missed.length < k ∧
          ReadsAt l e ∧ e.data &&& m = v) := by
  induction k generalizing s with
  | zero => exact ⟨[], List.forall_mem_nil _, .inl ⟨rfl, (List.append_nil _).symm, rfl⟩⟩
  | succ k ih =>
    have hbus : (s.afterBusRead .main l).bus =
      s.bus ++ [⟨.main, .read, l, (s.env.read s.par.reg l).1, wireRead s.par l⟩] := rfl
    by_cases hmatch : (s.env.read s.par.reg l).1 &&& m = v
    · have hpolls : s.polls l m v (k + 1) = (true, s.afterBusRead .main l) := if_pos hmatch
      rw [hpolls]
      exact ⟨[], List.forall_mem_nil _, .inr ⟨_, rfl, hbus, Nat.zero_lt_succ k, ⟨rfl, rfl, rfl⟩, hmatch⟩⟩
    · have hpolls : s.polls l m v (k + 1) = (s.afterBusRead .main l).polls l m v k := if_neg hmatch
      rw [hpolls]
      obtain ⟨missed, hmissed, hend⟩ := ih (s.afterBusRead .main l)
      refine ⟨⟨.main, .read, l, (s.env.read s.par.reg l).1, wireRead s.par l⟩ :: missed,
        List.forall_mem_cons.2 ⟨⟨⟨rfl, rfl, rfl⟩, hmatch⟩, hmissed⟩, ?_⟩
      simpa only [hbus, List.append_assoc, List.cons_append, List.nil_append, List.length_cons, Nat.add_right_cancel_iff,
        Nat.add_lt_add_iff_right] using hend

/-- A poll that succeeds makes at least one read and at most its bound. -/
theorem polls_reads_of_hit {l : Loc} {m v : Byte} {k : Nat} {s : State} (h : (s.polls l m v k).1 = true) :
    ∃ n, 1 ≤ n ∧ n ≤ k ∧ (s.polls l m v k).2.bus.length = s.bus.length + n := by
  obtain ⟨missed, -, ⟨hfalse, -⟩ | ⟨e, -, hbus, hlt, -⟩⟩ := polls_trace l m v k s
  · rw [hfalse] at h; cases h
  · exact ⟨missed.length + 1, by omega, hlt, by rw [hbus]; simp⟩

/-- Settles O16: alone, the poll is `State.polls`, and `polls_trace` says what that leaves on the trace. -/
theorem boundedPoll : Obligations.BoundedPoll := by
  intro s l m v k hq hl
  obtain ⟨d, hrun⟩ := Runs.pollUntil m v k hq hl s.mainCtl
  obtain ⟨missed, hmissed, ⟨hb, hbus, hlen⟩ | ⟨e, hb, hbus, hlt, hread, hmatch⟩⟩ := polls_trace l m v k s
  case inl =>
    rw [hb] at hrun
    refine ⟨false, _, missed, hrun, hbus, hlen.le, fun h => hlen ▸ h, fun e he => (hmissed e he).1,
      fun e he => (hmissed e (List.mem_of_mem_dropLast he)).2, ⟨nofun, ?_⟩, fun _ => hlen⟩
    rintro ⟨e, he, hmatch⟩
    exact absurd hmatch (hmissed e (List.mem_of_getLast? he)).2
  case inr =>
    rw [hb] at hrun
    refine ⟨true, _, missed ++ [e], hrun, hbus, by simpa using hlt, by simp, ?reads, ?misses,
      ⟨fun _ => ⟨e, by simp, hmatch⟩, fun _ => rfl⟩, nofun⟩
    case reads =>
      exact List.forall_mem_append.2 ⟨fun e he => (hmissed e he).1, List.forall_mem_singleton.2 hread⟩
    case misses =>
      rw [List.dropLast_concat]
      exact fun e he => (hmissed e he).2

/-! ## The extended address (41 R130) -/

/-- An address with bytes put at the given places, in order. -/
def putBytes : Ident → List (Fin 8) → List Byte → Ident
  | e, i :: is, b :: bs => putBytes (e.set i b) is bs
  | e, _, _ => e

/-- Bytes put at all eight places, in ascending order, are the address. -/
theorem putBytes_eq_identOf (e : Ident) {bs : List Byte} (h : bs.length = 8) :
    putBytes e [0, 1, 2, 3, 4, 5, 6, 7] bs = identOf bs := by
  match bs, h with
  | [b0, b1, b2, b3, b4, b5, b6, b7], _ =>
    ext i hi
    interval_cases i <;> simp [putBytes, identOf]

theorem identOf_toList {bs : List Byte} (h : bs.length = 8) : (identOf bs).toList = bs := by
  match bs, h with
  | [b0, b1, b2, b3, b4, b5, b6, b7], _ => rfl

/-- A list of reads does not look at the block's copy of the configuration. -/
theorem reads_setCfg (c : Ctx) (ls : List Loc) (s : State) (x : RadioConfig) :
    (s.setCfg x).reads c ls = ((s.reads c ls).1, (s.reads c ls).2.setCfg x) := by
  induction ls generalizing s with
  | nil => rfl
  | cons l ls ih =>
    have hl : (s.setCfg x).afterBusRead c l = (s.afterBusRead c l).setCfg x := rfl
    simp only [State.reads, hl, ih]
    rfl

/-- The reads of an extended address, whichever of its registers are left to read (41 R130). -/
theorem Runs.readEadr {base : Loc} (hb : base.windowInRange 8 = true) (is : List (Fin 8)) {s : State} (hq : Quiet s) :
    Runs (Machine.readEadr base is) s ()
      ((s.reads .main (is.map fun i => locPlus base i.val)).2.setCfg { s.cfg with
        eadr := putBytes s.cfg.eadr is (s.reads .main (is.map fun i => locPlus base i.val)).1 }) := by
  induction is generalizing s with
  | nil => exact Runs.pure _ _
  | cons i is ih =>
    refine Runs.bind (Runs.mainRead hq (locPlus_inRange hb i.isLt))
      (Runs.bind (Runs.mainUpdate (hq.read _ _) fun _ => rfl) ?_)
    have hrest := @ih ((s.afterBusRead .main (locPlus base i.val)).setCfg
      { s.cfg with eadr := s.cfg.eadr.set i (s.env.read s.par.reg (locPlus base i.val)).1 }) (hq.read .main _)
    rwa [reads_setCfg] at hrest

/-- The state after the reads of an unknown extended address from `base` on. -/
def State.addressRead (s : State) (base : Loc) : State :=
  (s.reads .main (locsAt base 0 8)).2.setCfg
    { s.cfg with eadr := identOf (s.reads .main (locsAt base 0 8)).1, eadrValid := true }

theorem Runs.loadExtendedAddress_unknown {base : Loc} (hb : base.windowInRange 8 = true) {s : State} (hq : Quiet s)
    (h : s.cfg.eadrValid = false) : Runs (Machine.loadExtendedAddress base) s () (s.addressRead base) := by
  refine Runs.bind (Runs.view fun _ => rfl) ?_
  rw [if_neg (by simp [h])]
  have hread := Runs.readEadr hb [0, 1, 2, 3, 4, 5, 6, 7] hq
  rw [putBytes_eq_identOf _ (by simp)] at hread
  exact Runs.bind hread (Runs.mainUpdate (hq.reads .main (locsAt base 0 8)) fun _ => rfl)

theorem Runs.loadExtendedAddress_known {base : Loc} (hb : base.windowInRange 8 = true) {s : State} (hq : Quiet s)
    (h : s.cfg.eadrValid = true) :
    Runs (Machine.loadExtendedAddress base) s () (s.writes .main (fifoAt base 0 s.cfg.eadr.toList)) := by
  refine Runs.bind (Runs.view fun _ => rfl) ?_
  rw [if_pos h]
  exact Runs.writeEadr hb 0 _ hq (by simp)

/-- Settles O17: the eight reads are in ascending order (`Runs.readEadr`), and eight bytes put in order make the
address. -/
theorem extendedAddressRead : Obligations.ExtendedAddressRead := by
  intro s base hq hb hunknown
  obtain ⟨d, hrun⟩ := Runs.loadExtendedAddress_unknown hb hq hunknown s.mainCtl
  exact ⟨_, hrun, rfl, identOf_toList (by simp), rfl, rfl⟩

/-! ## Initialisation (41 R112) -/

theorem Quiet.addressLoaded {s : State} (hq : Quiet s) : Quiet s.addressLoaded := by
  unfold State.addressLoaded
  split
  · exact hq.writes _ _
  · exact hq.reads .main (locsAt s.par.reg.eadr0 0 8)

@[simp] theorem addressLoaded_par (s : State) : s.addressLoaded.par = s.par := by
  unfold State.addressLoaded
  split <;> simp

theorem Runs.loadExtendedAddress {s : State} (hq : Quiet s) (hp : s.par.wf = true) :
    Runs (Machine.loadExtendedAddress s.par.reg.eadr0) s () s.addressLoaded := by
  obtain ⟨-, headr, -, -⟩ := RegMap.ranges (Params.reg_wf hp)
  unfold State.addressLoaded
  split
  · next h => exact Runs.loadExtendedAddress_known headr hq h
  · next h => exact Runs.loadExtendedAddress_unknown headr hq (Bool.eq_false_iff.2 h)

/-- The RX FIFO flushed and both address pairs inert, with their shadows (41 R112 lines 3 to 5). -/
def State.inert (s : State) : State :=
  (s.writes .main ([(s.par.reg.rxflush, s.par.reg.vRxflush)] ++ pairAt s.par.reg.sadrl s.par.reg.sadrh 0xFFFF ++
    pairAt s.par.reg.panl s.par.reg.panh 0xFFFF)).setCfg { s.cfg with short := 0xFFFF, pan := 0xFFFF }

/-- `State.configured` in its three parts. -/
theorem configured_eq (s : State) : s.configured = s.inert.addressLoaded.writes .main s.par.calSeq := rfl

theorem Quiet.inert {s : State} (hq : Quiet s) : Quiet s.inert := hq.writes .main _
@[simp] theorem inert_par (s : State) : s.inert.par = s.par := writes_par .main _ s

/-- A pair written and its shadow, before the rest of an operation. -/
theorem Runs.pairThen {α : Type} {s t : State} {lo hi : Loc} (hq : Quiet s) (hlo : lo.inRange = true)
    (hhi : hi.inRange = true) (v : Half) (f : RadioConfig → RadioConfig) {k : Op α} {a : α}
    (hk : Runs k ((s.writes .main (pairAt lo hi v)).setCfg (f s.cfg)) a t) :
    Runs (do Machine.wrPair lo hi v; Machine.mainUpdate fun s => s.setCfg (f s.cfg); k) s a t := by
  rw [← writes_cfg .main (pairAt lo hi v) s] at hk
  exact Runs.bind (Runs.wrPair v hq hlo hhi) (Runs.bind (Runs.mainUpdate (hq.writes _ _) fun _ => rfl) hk)

/-- An update that no write looks at or undoes moves past a list of writes. -/
theorem writes_update {f : State → State} {c : Ctx}
    (hf : ∀ s l v, (f s).afterBusWrite c l v = f (s.afterBusWrite c l v)) (ws : List (Loc × Byte)) (s : State) :
    (f s).writes c ws = f (s.writes c ws) := by
  induction ws generalizing s with
  | nil => rfl
  | cons w ws ih =>
    calc (f s).writes c (w :: ws) = (f (s.afterBusWrite c w.1 w.2)).writes c ws := by rw [← hf]; rfl
      _ = f (s.writes c (w :: ws)) := ih _

theorem writes_setCfg (c : Ctx) (ws : List (Loc × Byte)) (s : State) (x : RadioConfig) :
    (s.setCfg x).writes c ws = (s.writes c ws).setCfg x :=
  writes_update (f := (State.setCfg · x)) (fun _ _ _ => rfl) ws s

/-- Both shadows set at once, after all the writes. -/
theorem inert_eq (s : State) : s.inert = State.setCfg (State.writes .main (pairAt s.par.reg.panl s.par.reg.panh 0xFFFF)
    (State.setCfg (State.writes .main (pairAt s.par.reg.sadrl s.par.reg.sadrh 0xFFFF)
      (s.afterBusWrite .main s.par.reg.rxflush s.par.reg.vRxflush)) { s.cfg with short := 0xFFFF }))
    { s.cfg with short := 0xFFFF, pan := 0xFFFF } := by
  simp only [State.inert, State.writes_append, writes_setCfg]
  rfl

/-- Lines 3 to 7 of 41 R112. -/
theorem Runs.initConfigure {s : State} (hq : Quiet s) (hp : s.par.wf = true) :
    Runs (Machine.initConfigure s.par) s () s.configured := by
  obtain ⟨hreg, -⟩ := RegMap.ranges (Params.reg_wf hp)
  have hload := Runs.loadExtendedAddress hq.inert (by simpa using hp)
  have hcal := Runs.bind (k := fun _ => Machine.writeCal s.par.calSeq) hload
    (Runs.writeCal _ hq.inert.addressLoaded (Params.calSeq_inRange hp))
  rw [inert_par] at hcal
  have hflush := hq.write .main s.par.reg.rxflush s.par.reg.vRxflush
  refine Runs.bind (Runs.mainWrite _ hq (hreg _ (by simp))) ?_
  refine Runs.pairThen hflush (hreg _ (by simp)) (hreg _ (by simp)) _ (fun c => { c with short := 0xFFFF }) ?_
  refine Runs.pairThen ?quiet (hreg _ (by simp)) (hreg _ (by simp)) _ (fun c => { c with pan := 0xFFFF }) ?rest
  case quiet => exact hflush.writes _ _
  case rest => exact inert_eq s ▸ hcal

theorem Quiet.configured {s : State} (hq : Quiet s) : Quiet s.configured := hq.inert.addressLoaded.writes _ _

@[simp] theorem configured_par (s : State) : s.configured.par = s.par := by
  simp [configured_eq]

@[simp] theorem polls_par (l : Loc) (m v : Byte) (k : Nat) (s : State) : (s.polls l m v k).2.par = s.par := by
  rw [polls_frame]

@[simp] theorem initBegin_par (s : State) : (initBegin s).par = s.par := rfl
@[simp] theorem softReset_par (s : State) : s.softReset.2.par = s.par := by simp [State.softReset]
@[simp] theorem calibrated_par (s : State) : s.calibrated.2.par = s.par := by simp [State.calibrated]

theorem Quiet.softReset {s : State} (hq : Quiet s) : Quiet s.softReset.2 :=
  Quiet.polls (s := initBegin (s.afterBusWrite .main s.par.reg.softrst s.par.reg.vSoftrst))
    (hq.write .main s.par.reg.softrst s.par.reg.vSoftrst) _ _ _ _

theorem Quiet.calibrated {s : State} (hq : Quiet s) : Quiet s.calibrated.2 := hq.softReset.configured.polls _ _ _ _

/-- Lines 9 to 11 of 41 R112. -/
theorem Runs.initComplete {t : State} (hq : Quiet t) (hp : t.par.wf = true) :
    Runs (Machine.initComplete t.par) t () ((State.setCfg (t.writes .main
      ((t.par.reg.intcon, t.par.reg.vIntcon) :: tuneWrites t.par.reg t.par.defaultChannel))
      { t.cfg with channel := t.par.defaultChannel }).setDrv .ready) := by
  have hint := hq.write .main t.par.reg.intcon t.par.reg.vIntcon
  have htune := Runs.tuneChannel hint hp t.par.defaultChannel
  exact Runs.bind (Runs.mainWrite _ hq (reg_inRange hp)) (Runs.bind htune
    (Runs.mainUpdate (hint.writes .main (tuneWrites t.par.reg t.par.defaultChannel)) fun _ => rfl))

/-- The initialisation when both polls succeed (41 R112): its lines are `State.softReset`, `State.calibrated` and
`State.initialized`. -/
theorem Runs.opInit {s : State} (hq : Quiet s) (hp : s.par.wf = true) (hdrv : s.drv ≠ .faulted)
    (hreset : s.softReset.1 = true) (hready : s.calibrated.1 = true) :
    Runs Machine.opInit s .none s.initialized := by
  have hpoll : Runs (Machine.pollUntil s.par.reg.softrst s.par.reg.mSoftrst 0 s.par.maxPoll)
      (initBegin (s.afterBusWrite .main s.par.reg.softrst s.par.reg.vSoftrst)) s.softReset.1 s.softReset.2 :=
    Runs.pollUntil _ _ _ (hq.write .main s.par.reg.softrst s.par.reg.vSoftrst) (reg_inRange hp)
  have hconf := Runs.initConfigure hq.softReset (by simpa using hp)
  have hup : Runs (Machine.pollUntil s.par.reg.rfstate s.par.reg.mRxready s.par.reg.vRxready s.par.maxPoll)
      s.softReset.2.configured s.calibrated.1 s.calibrated.2 :=
    Runs.pollUntil _ _ _ hq.softReset.configured (reg_inRange hp)
  have hdone := Runs.initComplete hq.calibrated (by simpa using hp)
  rw [softReset_par] at hconf
  rw [calibrated_par] at hdone
  refine Runs.bind (Runs.view fun _ => rfl) (Runs.bind (Runs.require (by simpa using hdrv))
    (Runs.bind (Runs.view fun _ => rfl) (Runs.bind (Runs.mainUpdate hq fun _ => rfl)
      (Runs.bind (Runs.mainWrite _ (s := initBegin s) hq (reg_inRange hp)) (Runs.bind hpoll ?_)))))
  rw [if_pos hreset]
  refine Runs.bind hconf (Runs.bind hup ?_)
  rw [if_pos hready]
  exact Runs.bind hdone (Runs.pure _ _)

/-- Settles O13: alone, the initialisation is `Runs.opInit`. -/
theorem initializeSucceeds : Obligations.InitializeSucceeds :=
  fun _ ⟨hq, hidle, hp⟩ hdrv hreset hready => runMain_runs hidle (Runs.opInit hq hp hdrv hreset hready)

/-! ### How many transactions that makes (41 R112, R114) -/

/-- The event a write leaves on the trace (40 R100). -/
def writeEvent (p : Params) (c : Ctx) (w : Loc × Byte) : BusEvent := ⟨c, .write, w.1, w.2, wireWrite p w.1 w.2⟩

/-- A list of writes leaves its events on the trace, in order. -/
theorem writes_bus (c : Ctx) (ws : List (Loc × Byte)) (s : State) :
    (s.writes c ws).bus = s.bus ++ ws.map (writeEvent s.par c) := by
  induction ws generalizing s with
  | nil => exact (List.append_nil _).symm
  | cons w ws ih =>
    calc (s.writes c (w :: ws)).bus = (s.afterBusWrite c w.1 w.2).bus ++ ws.map (writeEvent s.par c) := ih _
      _ = s.bus ++ (w :: ws).map (writeEvent s.par c) := List.append_assoc _ _ _

@[simp] theorem writes_bus_length (c : Ctx) (ws : List (Loc × Byte)) (s : State) :
    (s.writes c ws).bus.length = s.bus.length + ws.length := by
  rw [writes_bus, List.length_append, List.length_map]

@[simp] theorem reads_bus_length (c : Ctx) (ls : List Loc) (s : State) :
    (s.reads c ls).2.bus.length = s.bus.length + ls.length := by
  induction ls generalizing s with
  | nil => rfl
  | cons l ls ih =>
    calc (s.reads c (l :: ls)).2.bus.length = (s.afterBusRead c l).bus.length + ls.length := ih _
      _ = s.bus.length + (l :: ls).length := by simp [State.afterBusRead, State.pushBus, Nat.add_assoc, Nat.add_comm 1]

@[simp] theorem fifoAt_length (b : Loc) (off : Nat) (vs : List Byte) : (fifoAt b off vs).length = vs.length := by
  induction vs generalizing off with
  | nil => rfl
  | cons v vs ih => simp [fifoAt, ih]

/-- Whether the extended address is known or not, its eight registers are accessed once each. -/
@[simp] theorem addressLoaded_bus_length (s : State) : s.addressLoaded.bus.length = s.bus.length + 8 := by
  unfold State.addressLoaded
  split <;> simp

theorem configured_bus_length (s : State) :
    s.configured.bus.length = s.bus.length + (1 + 2 + 2 + 8 + s.par.calSeq.length) := by
  have hinert : s.inert.bus.length = s.bus.length + 5 := writes_bus_length .main _ s
  rw [configured_eq, writes_bus_length, addressLoaded_bus_length, hinert]
  omega

theorem initialized_bus_length (s : State) : s.initialized.bus.length = s.calibrated.2.bus.length + (1 + 3) :=
  writes_bus_length .main _ s.calibrated.2

/-- Settles O14: the transactions of `Runs.opInit`, phase by phase. -/
theorem initializeTransactionCount : Obligations.InitializeTransactionCount := by
  intro s ⟨hq, hidle, hp⟩ hdrv hreset hready
  obtain ⟨p1, h1, h1k, hbus1⟩ := polls_reads_of_hit hreset
  obtain ⟨p2, h2, h2k, hbus2⟩ := polls_reads_of_hit hready
  refine ⟨_, p1, p2, runMain_runs hidle (Runs.opInit hq hp hdrv hreset hready), h1, h1k, h2, h2k, ?_⟩
  have hbegin : (initBegin (s.afterBusWrite .main s.par.reg.softrst s.par.reg.vSoftrst)).bus.length = s.bus.length + 1 :=
    writes_bus_length .main [(s.par.reg.softrst, s.par.reg.vSoftrst)] s
  have hconf := configured_bus_length s.softReset.2
  rw [softReset_par] at hconf
  calc s.initialized.bus.length
      = s.calibrated.2.bus.length + (1 + 3) := initialized_bus_length s
    _ = s.softReset.2.configured.bus.length + p2 + (1 + 3) := congrArg (· + (1 + 3)) hbus2
    _ = s.softReset.2.bus.length + (1 + 2 + 2 + 8 + s.par.calSeq.length) + p2 + (1 + 3) := by rw [hconf]
    _ = s.bus.length + 1 + p1 + (1 + 2 + 2 + 8 + s.par.calSeq.length) + p2 + (1 + 3) := by rw [← hbegin, ← hbus1]; rfl
    _ = s.bus.length + (1 + p1 + 1 + 2 + 2 + 8 + s.par.calSeq.length + p2 + 1 + 3) := by omega

/-! ## Frames handed to the transceiver (41 R125, R127)

A frame is written under the mask, and `tx_seq` advances between two of its writes. `State.inFrame` is the state inside
that critical section after a list of writes, `State.framed` the state after it. -/

/-- Inside the critical section of a send that `s` starts, after the writes `ws`, of which the header was the first. -/
def State.inFrame (s : State) (ws : List (Loc × Byte)) : State :=
  ((s.writes .main ws).setTxSeq (s.txSeq + 1)).setIrqMask true

/-- After the critical section of a send that `s` starts, with the writes `ws`. -/
def State.framed (s : State) (ws : List (Loc × Byte)) : State :=
  ((s.writes .main ws).setTxSeq (s.txSeq + 1)).setIrqMask false

theorem transmitted_eq_framed (s : State) (image : List Byte) (trigger : Byte) :
    s.transmitted image trigger = s.framed (fifoAt s.par.reg.txfifo 0 image ++ [(s.par.reg.txncon, trigger)]) := rfl

theorem inFrame_writes (s : State) (ws ws' : List (Loc × Byte)) :
    (s.inFrame ws).writes .main ws' = s.inFrame (ws ++ ws') := by
  rw [State.inFrame, State.inFrame, State.writes_append, writes_update (f := (State.setIrqMask · true)) fun _ _ _ => rfl,
    writes_update (f := (State.setTxSeq · (s.txSeq + 1))) fun _ _ _ => rfl]

@[simp] theorem inFrame_par (s : State) (ws : List (Loc × Byte)) : (s.inFrame ws).par = s.par := writes_par .main ws s
@[simp] theorem inFrame_cfg (s : State) (ws : List (Loc × Byte)) : (s.inFrame ws).cfg = s.cfg := writes_cfg .main ws s

@[simp] theorem inFrame_rxRec (s : State) (ws : List (Loc × Byte)) : (s.inFrame ws).rxRec = s.rxRec := by
  show (s.writes .main ws).rxRec = s.rxRec
  rw [writes_frame]

theorem Quiet.inFrame {s : State} (hq : Quiet s) (ws : List (Loc × Byte)) : Quiet (s.inFrame ws) := hq.writes .main ws

/-- The mask is set before the writes. -/
theorem inFrame_eq (s : State) (ws : List (Loc × Byte)) :
    s.inFrame ws = ((s.setIrqMask true).writes .main ws).setTxSeq (s.txSeq + 1) := by
  rw [writes_update (f := (State.setIrqMask · true)) (fun _ _ _ => rfl) ws s]
  rfl

@[simp] theorem writes_txSeq (c : Ctx) (ws : List (Loc × Byte)) (s : State) : (s.writes c ws).txSeq = s.txSeq := by
  rw [writes_frame]

/-- `tx_seq` advances after the sequence number is written (41 R125). -/
theorem Runs.advanceTxSeq {s t : State} (hq : Quiet t) (hseq : t.txSeq = s.txSeq) :
    Runs (Machine.mainUpdate fun s => s.setTxSeq (inc8 s.txSeq)) t () (t.setTxSeq (s.txSeq + 1)) :=
  hseq ▸ Runs.mainUpdate hq fun _ => rfl

/-- The header, under the mask: lengths, FrameControl, sequence number, PAN id (41 R125, R127). -/
theorem Runs.writeHeader {s : State} {b : Loc} {n : Nat} (hq : Quiet s) (hb : b.windowInRange n = true) (hn : 7 ≤ n)
    (hdr len : Nat) (fcf : Half) :
    Runs (Machine.writeHeader b hdr len fcf) (s.setIrqMask true) () (s.inFrame (fifoAt b 0 (txHead s hdr len fcf))) := by
  have hhead : fifoAt b 0 (txHead s hdr len fcf) =
    (fifoAt b 0 (txPrefix hdr len fcf) ++ fifoAt b 4 [s.txSeq]) ++ fifoAt b 5 (leBytes s.cfg.pan) := rfl
  have hmask : Quiet (s.setIrqMask true) := hq
  have hlens := hmask.writes .main (fifoAt b 0 (txPrefix hdr len fcf))
  have hseq := hlens.writes .main (fifoAt b 4 [s.txSeq])
  rw [hhead, ← inFrame_writes]
  refine Runs.bind (Runs.wrFifo hb 0 _ hmask (show 0 + 4 ≤ n by omega)) (Runs.bind (Runs.view fun _ => rfl) ?_)
  rw [writes_txSeq]
  refine Runs.bind (Runs.wrFifo hb 4 [s.txSeq] hlens (show 4 + 1 ≤ n by omega)) ?_
  refine Runs.bind (Runs.advanceTxSeq (s := s) hseq (by simp)) (Runs.bind (Runs.view fun _ => rfl) ?_)
  rw [← State.writes_append, ← inFrame_eq, inFrame_cfg]
  exact Runs.wrFifo hb 5 _ (hq.inFrame _) (show 5 + 2 ≤ n by omega)

theorem Runs.wrFifo_inFrame {s : State} {b : Loc} {n : Nat} (hq : Quiet s) (hb : b.windowInRange n = true)
    (ws : List (Loc × Byte)) (off : Nat) (vs : List Byte) (hn : off + vs.length ≤ n) :
    Runs (Machine.wrFifo b off vs) (s.inFrame ws) () (s.inFrame (ws ++ fifoAt b off vs)) := by
  rw [← inFrame_writes]
  exact Runs.wrFifo hb off vs (hq.inFrame ws) hn

/-- The trigger and the end of the critical section. -/
theorem Runs.trigger {s : State} {l : Loc} (hq : Quiet s) (hl : l.inRange = true) (v : Byte) (ws : List (Loc × Byte)) :
    Runs (do Machine.mainWrite l v; Machine.elem unmaskIrq) (s.inFrame ws) () (s.framed (ws ++ [(l, v)])) := by
  have hwrite := Runs.mainWrite v (hq.inFrame ws) hl
  have hframe : (s.inFrame ws).afterBusWrite .main l v = s.inFrame (ws ++ [(l, v)]) := inFrame_writes s ws [(l, v)]
  rw [hframe] at hwrite
  exact Runs.bind hwrite (Runs.elem (hq.inFrame _) (Runs.update fun _ => rfl))

/-- The writes of a `send` (41 R125): the header, the destination, the source, the payload, each at its offset, and the
trigger. -/
def sendWrites (s : State) (h : HdrShape) (fcf : Half) (payload : List Byte) : List (Loc × Byte) :=
  fifoAt s.par.reg.txfifo 0 (txHead s (hdrLen h) payload.length fcf) ++
    fifoAt s.par.reg.txfifo 7 (s.rxRec.src.take h.dl) ++ fifoAt s.par.reg.txfifo (7 + h.dl) (srcAddr s.cfg h.sl) ++
    fifoAt s.par.reg.txfifo (2 + hdrLen h) payload ++ [(s.par.reg.txncon, s.par.reg.vTxtrig)]

/-- The frame of a `send`, under the mask; the record may hold fewer destination bytes than the shape wants. -/
theorem Runs.writeFrame {s : State} (hq : Quiet s) (hp : s.par.wf = true) {h : HdrShape} (fcf : Half)
    {payload : List Byte} (hlen : lengthOk (hdrLen h) payload.length = true) :
    Runs (Machine.writeFrame s.par h fcf payload) (s.setIrqMask true) () (s.framed (sendWrites s h fcf payload)) := by
  obtain ⟨hreg, -, htx, -⟩ := RegMap.ranges (Params.reg_wf hp)
  obtain ⟨-, hlen⟩ := (lengthOk_iff _ _).1 hlen
  simp only [hdrLen] at hlen
  refine Runs.bind (Runs.writeHeader hq htx (by decide) _ _ _) (Runs.bind (Runs.view fun _ => rfl) ?_)
  rw [inFrame_rxRec]
  have hdst := List.length_take_le h.dl s.rxRec.src
  refine Runs.bind (Runs.wrFifo_inFrame hq htx _ 7 _ (by omega)) (Runs.bind (Runs.view fun _ => rfl) ?_)
  rw [inFrame_cfg]
  have hsrc := srcAddr_length_le s.cfg h.sl
  exact Runs.bind (Runs.wrFifo_inFrame hq htx _ (7 + h.dl) _ (by omega))
    (Runs.bind (Runs.wrFifo_inFrame hq htx _ (2 + hdrLen h) _ (by simp only [hdrLen]; omega))
      (Runs.trigger hq (hreg _ (by simp)) _ _))

/-- Where the frame has a destination, the RX record holds one of its length (41 R125). -/
abbrev HasDest (s : State) (h : HdrShape) : Prop := h.dl ≠ 0 → s.rxRec.valid = true ∧ s.rxRec.srcLen = h.dl

theorem noDest_eq_false {s : State} {h : HdrShape} (hd : HasDest s h) : noDest s.rxRec h.dl = false := by
  by_cases h0 : h.dl = 0
  · simp [noDest, h0]
  · obtain ⟨hvalid, hlen⟩ := hd h0
    simp [noDest, hvalid, hlen]

/-- A `send` that passes its tests (41 R125). -/
theorem Runs.opSend {s : State} (hs : InService s) {fcf : Half} {h : HdrShape} (hf : hdrShape fcf = some h)
    {payload : List Byte} (hlen : lengthOk (hdrLen h) payload.length = true) (hd : HasDest s h) :
    Runs (Machine.opSend fcf payload) s () (s.framed (sendWrites s h fcf payload)) := by
  have ⟨⟨hq, _, hp⟩, _⟩ := hs
  refine Runs.inService hs ?_
  rw [hf]
  refine Runs.bind (Runs.require hlen) (Runs.bind (Runs.elem hq (Runs.update fun _ => rfl))
    (Runs.bind (Runs.view fun _ => rfl) ?_))
  rw [if_neg (by simp [noDest_eq_false hd])]
  exact Runs.writeFrame hq hp fcf hlen

theorem exec_send {s : State} (hs : InService s) {fcf : Half} {h : HdrShape} (hf : hdrShape fcf = some h)
    {payload : List Byte} (hlen : lengthOk (hdrLen h) payload.length = true) (hd : HasDest s h) :
    exec (.send fcf payload) s = .next ((s.framed (sendWrites s h fcf payload)).finish .ok .none) := by
  have ⟨⟨_, hidle, _⟩, _⟩ := hs
  exact runMain_runs hidle (Runs.bind (Runs.opSend hs hf hlen hd) (Runs.pure _ _))

/-! ### The image (30 R76) -/

theorem alen_eq_some {m : BitVec 2} {n : Nat} (h : alen m = some n) : n = 0 ∨ n = 2 ∨ n = 8 := by
  unfold alen at h
  split_ifs at h <;> simp_all

theorem hdrShape_eq_some (f : Half) (h : HdrShape) :
    hdrShape f = some h ↔ alen (fcfDm f) = some h.dl ∧ alen (fcfSm f) = some h.sl := by
  obtain ⟨dl, sl⟩ := h
  unfold hdrShape
  cases alen (fcfDm f) <;> cases alen (fcfSm f) <;> simp

/-- The source address has the length its mode announces. -/
theorem srcAddr_length {c : RadioConfig} {m : BitVec 2} {sl : Nat} (h : alen m = some sl) :
    (srcAddr c sl).length = sl := by
  obtain rfl | rfl | rfl := alen_eq_some h
  · rfl
  · rfl
  · simp [srcAddr]

/-- The destination has the length its mode announces, where the record that holds it fits its FrameControl. -/
theorem dest_length {s : State} {h : HdrShape} (hfits : s.rxRec.valid = true → s.rxRec.Fits s.par) (hd : HasDest s h) :
    (s.rxRec.src.take h.dl).length = h.dl := by
  by_cases h0 : h.dl = 0
  · simp [h0]
  · obtain ⟨hvalid, hlen⟩ := hd h0
    obtain ⟨-, -, -, -, -, -, -, hsrc, -⟩ := hfits hvalid
    rw [List.length_take, hsrc, hlen, Nat.min_self]

@[simp] theorem txHead_length (s : State) (hdr len : Nat) (fcf : Half) : (txHead s hdr len fcf).length = 7 := rfl

/-- With addresses of the announced lengths the parts of a frame stand one after the other from `A_TXFIFO` on. -/
theorem sendWrites_eq {s : State} {h : HdrShape} (fcf : Half) (payload : List Byte)
    (hdst : (s.rxRec.src.take h.dl).length = h.dl) (hsrc : (srcAddr s.cfg h.sl).length = h.sl) :
    sendWrites s h fcf payload =
      fifoAt s.par.reg.txfifo 0 (txImage s h fcf payload) ++ [(s.par.reg.txncon, s.par.reg.vTxtrig)] := by
  have hpayload : 2 + hdrLen h = 7 + h.dl + h.sl := by simp only [hdrLen]; omega
  simp only [sendWrites, txImage, fifoAt_append, List.length_append, txHead_length, hdst, hsrc, hpayload, Nat.zero_add]

/-- Settles O27: the writes of `Runs.opSend` are the image. -/
theorem sendTransmits : Obligations.SendTransmits := by
  intro s fcf payload h hs hfits hf h116 h127 hd
  obtain ⟨-, hsl⟩ := (hdrShape_eq_some fcf h).1 hf
  have hdst := dest_length hfits hd
  have hsrc : (srcAddr s.cfg h.sl).length = h.sl := srcAddr_length hsl
  constructor
  · rw [exec_send hs hf ((lengthOk_iff _ _).2 ⟨h116, h127⟩) hd, sendWrites_eq fcf payload hdst hsrc]
    rfl
  · simp only [txImage, List.length_append, txHead_length, hdst, hsrc, hdrLen]
    omega

/-- The four parts of `send16_ack`'s image stand one after the other (41 R127). -/
theorem sendWrites16_eq (s : State) (b : Loc) (dest : Half) (payload : List Byte) :
    fifoAt b 0 (txHead s hdrSend16 payload.length fcfSend16) ++ fifoAt b 7 (leBytes dest) ++
      fifoAt b 9 (leBytes s.cfg.short) ++ fifoAt b 11 payload = fifoAt b 0 (txImage16 s dest payload) := by
  simp only [txImage16, fifoAt_append]
  rfl

/-- A `send16_ack` that passes its test (41 R127). -/
theorem Runs.opSend16Ack {s : State} (hs : InService s) (dest : Half) {payload : List Byte}
    (hlen : payload.length ≤ 116) :
    Runs (Machine.opSend16Ack dest payload) s () (s.transmitted (txImage16 s dest payload) s.par.reg.vTxtrigAck) := by
  have ⟨⟨hq, _, hp⟩, hready⟩ := hs
  obtain ⟨hreg, -, htx, -⟩ := RegMap.ranges (Params.reg_wf hp)
  rw [transmitted_eq_framed, ← sendWrites16_eq]
  refine Runs.bind (Runs.requireReady hready) (Runs.bind (Runs.require (decide_eq_true hlen))
    (Runs.bind (Runs.view fun _ => rfl) (Runs.bind (Runs.elem hq (Runs.update fun _ => rfl)) ?_)))
  refine Runs.bind (Runs.writeHeader hq htx (by decide) _ _ _)
    (Runs.bind (Runs.wrFifo_inFrame hq htx _ 7 (leBytes dest) (show 7 + 2 ≤ 129 by decide))
      (Runs.bind (Runs.view fun _ => rfl) ?_))
  rw [inFrame_cfg]
  exact Runs.bind (Runs.wrFifo_inFrame hq htx _ 9 (leBytes s.cfg.short) (show 9 + 2 ≤ 129 by decide))
    (Runs.bind (Runs.wrFifo_inFrame hq htx _ 11 payload (by omega)) (Runs.trigger hq (hreg _ (by simp)) _ _))

/-- Settles O29: within the bound it is `Runs.opSend16Ack`; the test of the length comes before the mask. -/
theorem send16Transmits : Obligations.Send16Transmits := by
  intro s dest payload hs
  have ⟨⟨_, hidle, _⟩, hready⟩ := hs
  refine ⟨fun hlen => runMain_runs hidle (Runs.bind (Runs.opSend16Ack hs dest hlen) (Runs.pure _ _)), fun hlen => ?_⟩
  exact runMain_fails hidle (Fails.bind (Runs.bindFails (Runs.requireReady hready)
    (Fails.bind (Fails.require (decide_eq_false (Nat.not_le.2 hlen))))))

/-! ### The header-length law (41 R126, 30 R74, R75) -/

theorem alen_eq_none : ∀ m : BitVec 2, alen m = none ↔ m = 1 := by decide

/-- Where a mode has a length, it is `map` of 41 R126. -/
theorem alen_eq_map : ∀ (m : BitVec 2) (n : Nat),
    alen m = some n → n = match m.toNat with | 0 => 0 | 2 => 2 | _ => 8 := by
  have hmap : ∀ m : BitVec 2, ∀ n ∈ alen m, n = match m.toNat with | 0 => 0 | 2 => 2 | _ => 8 := by decide
  exact hmap

theorem hdrShape_eq_none (f : Half) : hdrShape f = none ↔ fcfDm f = 1 ∨ fcfSm f = 1 := by
  rw [← alen_eq_none, ← alen_eq_none]
  unfold hdrShape
  cases alen (fcfDm f) <;> cases alen (fcfSm f) <;> simp

theorem Fails.opSend_badAddrMode {s : State} (hready : s.drv = .ready) {fcf : Half} (hf : hdrShape fcf = none)
    (payload : List Byte) : Fails (Machine.opSend fcf payload) s .badAddrMode s := by
  refine Runs.bindFails (Runs.requireReady hready) (Runs.bindFails (Runs.view fun _ => rfl) ?_)
  rw [hf]
  exact Fails.raise

/-- The first transaction of a frame is the first of its writes. -/
theorem framed_bus_first {s : State} {w : Loc × Byte} {ws : List (Loc × Byte)} (h : ws.head? = some w) (c : Code)
    (v : Value) : ((s.framed ws).finish c v).bus[s.bus.length]? = some (writeEvent s.par .main w) := by
  have hbus : ((s.framed ws).finish c v).bus = s.bus ++ ws.map (writeEvent s.par .main) := writes_bus .main ws s
  rw [hbus, List.getElem?_append_right le_rfl, Nat.sub_self, ← List.head?_eq_getElem?, List.head?_map, h]
  rfl

theorem sendWrites_head? (s : State) (h : HdrShape) (fcf : Half) (payload : List Byte) :
    (sendWrites s h fcf payload).head? = some (locPlus s.par.reg.txfifo 0, countByte (hdrLen h)) := rfl

theorem countByte_toNat {n : Nat} (h : n ≤ 127) : (countByte n).toNat = n := by
  rw [countByte, BitVec.toNat_ofNat]
  omega

/-- Settles O30: `alen` is the rule's `map` where it has a value, and both directions compute `hdrLen` of `hdrShape`. -/
theorem headerLengthLaw : Obligations.HeaderLengthLaw := by
  refine ⟨hdrShape_eq_none, ?sum, ?received, ?refused, ?sent⟩
  case sum =>
    intro fcf h hf
    obtain ⟨hdl, hsl⟩ := (hdrShape_eq_some fcf h).1 hf
    exact congrArg₂ (5 + · + ·) (alen_eq_map _ _ hdl) (alen_eq_map _ _ hsl)
  case received =>
    intro p L fcf x hx
    obtain ⟨hdl, hsl, hhdr, -⟩ := rxShape_eq_some hx
    exact ⟨⟨x.dl, x.sl⟩, (hdrShape_eq_some fcf _).2 ⟨hdl, hsl⟩, hhdr⟩
  case refused =>
    intro s fcf payload hidle hready hmode
    exact runMain_fails hidle (Fails.bind (Fails.opSend_badAddrMode hready ((hdrShape_eq_none fcf).2 hmode) payload))
  case sent =>
    intro s fcf payload h hs hf h116 h127 hd
    exact ⟨_, _, exec_send hs hf ((lengthOk_iff _ _).2 ⟨h116, h127⟩) hd,
      framed_bus_first (sendWrites_head? s h fcf payload) .ok .none, rfl, countByte_toNat (by omega)⟩

end Sys2Proof.Machine

/-! # The interrupt bridge (42 R140 to R152)

With no move of the environment every path of the interrupt context is a chain of `IrqRuns.bind`, and ends in the state
that Safety.lean names (`IrqRuns.opRxpath`, `IrqRuns.opTxpath`, `IrqRuns.opIrq`). A frame's tail is read field by field;
the reads are those of one list of locations (`reads_rxTailLocs`), and the record made of them is that of the list
(`recordOfReads_parts`). -/

namespace Sys2Proof.Machine

/-! ## The drop condition (42 R143, 30 R86) -/

/-- A mode that is not 1 has a length (30 R74). -/
theorem alen_eq_modeLen : ∀ m : BitVec 2, m ≠ 1 → alen m = some (modeLen m) := by decide

theorem modeLen_of_alen {m : BitVec 2} {n : Nat} (h : alen m = some n) : modeLen m = n := by
  have hm : m ≠ 1 := fun h1 => by rw [(alen_eq_none m).2 h1] at h; cases h
  exact Option.some.inj ((alen_eq_modeLen m hm).symm.trans h)

theorem rxShape_of_dropped {p : Params} {L : Nat} {f : Half} (h : Dropped p L f) : rxShape p L f = none := by
  cases hx : rxShape p L f with
  | none => rfl
  | some x =>
    obtain ⟨hdm, hsm, hhdr, hL, hn, hmax⟩ := rxShape_eq_some hx
    have hannounced : announced f = x.hdr := by rw [announced, modeLen_of_alen hdm, modeLen_of_alen hsm, hhdr]
    rcases h with h | h | h | h | h
    · rw [(alen_eq_none _).2 h] at hdm; cases hdm
    · rw [(alen_eq_none _).2 h] at hsm; cases hsm
    all_goals omega

theorem rxShape_of_not_dropped {p : Params} {L : Nat} {f : Half} (h : ¬ Dropped p L f) :
    rxShape p L f = some ⟨modeLen (fcfDm f), modeLen (fcfSm f), announced f, L - announced f - p.rxTrailerLen⟩ := by
  simp only [Dropped, not_or] at h
  obtain ⟨hdm, hsm, hmax, hmin, hpayload⟩ := h
  have hshape : hdrShape f = some ⟨modeLen (fcfDm f), modeLen (fcfSm f)⟩ :=
    (hdrShape_eq_some f _).2 ⟨alen_eq_modeLen _ hdm, alen_eq_modeLen _ hsm⟩
  unfold rxShape
  rw [hshape]
  exact (if_neg hmax).trans ((if_neg hmin).trans (if_neg hpayload))

theorem rxShape_eq_none_iff (p : Params) (L : Nat) (f : Half) : rxShape p L f = none ↔ Dropped p L f := by
  refine ⟨fun hnone => ?_, rxShape_of_dropped⟩
  by_contra h
  rw [rxShape_of_not_dropped h] at hnone
  cases hnone

/-! ## The counters (10 R25, 42 R145) -/

theorem satInc8_toNat (c : Byte) : (satInc8 c).toNat = min 255 (c.toNat + 1) := by
  unfold satInc8
  split
  · next h => subst h; rfl
  · next h =>
    have hne : c.toNat ≠ 255 := fun h' => h (BitVec.eq_of_toNat_eq h')
    rw [BitVec.toNat_add]
    simp only [BitVec.ofNat_eq_ofNat, BitVec.toNat_ofNat]
    omega

/-! ## `RXPATH` alone (42 R142) -/

/-- The locations of the tail, one run per field of the record. -/
theorem rxTailLocs_eq (b : Loc) (L : Nat) (h : RxShape) :
    rxTailLocs b L h = locsAt b 3 3 ++ locsAt b 6 h.dl ++ locsAt b (6 + h.dl) h.sl ++ locsAt b (6 + h.dl + h.sl) h.n ++
      locsAt b (1 + L) 2 := by
  simp only [rxTailLocs, locsAt_append, ← Nat.add_assoc, Nat.reduceAdd]

/-- The record of a tail that is given field by field. -/
theorem recordOfReads_parts (L : Byte) (fcf : Half) {h : RxShape} (q pl ph lq rs : Byte) {d src body : List Byte}
    (hd : d.length = h.dl) (hsrc : src.length = h.sl) (hbody : body.length = h.n) :
    recordOfReads L fcf h ([q, pl, ph] ++ d ++ src ++ body ++ [lq, rs]) =
      { valid := true, frameLen := L.toNat, hdrLen := h.hdr, fcf := fcf, seq := q, pan := half ph pl,
        dstLen := h.dl, dst := d, srcLen := h.sl, src := src, payloadLen := h.n, payload := body, lqi := lq,
        rssi := rs } := by
  have hlen : ([q, pl, ph] ++ d ++ src ++ body).length = 3 + h.dl + h.sl + h.n := by simp [hd, hsrc, hbody]; omega
  have hbefore : ([q, pl, ph] ++ d ++ src).length = 3 + h.dl + h.sl := by simp [hd, hsrc]; omega
  have hhead : ([q, pl, ph] ++ d).length = 3 + h.dl := by simp [hd]; omega
  unfold recordOfReads
  congr 1
  · simp [← hd]
  · rw [← hhead, List.append_assoc ([q, pl, ph] ++ d ++ src), List.append_assoc ([q, pl, ph] ++ d),
      List.drop_left, ← hsrc, List.take_left]
  · rw [← hbefore, List.append_assoc ([q, pl, ph] ++ d ++ src), List.drop_left, ← hbody, List.take_left]
  · rw [byteAt, ← hlen, List.getD_append_right _ _ _ _ le_rfl, Nat.sub_self]; rfl
  · rw [byteAt, List.getD_append_right _ _ _ _ (by omega), show 4 + h.dl + h.sl + h.n - _ = 1 by omega]; rfl

/-- The tail's bytes and the state after them, one run of reads per field of the record. -/
theorem reads_rxTailLocs (b : Loc) (L : Nat) (h : RxShape) (s : State) :
    s.reads .irq (rxTailLocs b L h) =
      let head := s.reads .irq (locsAt b 3 3)
      let d := head.2.reads .irq (locsAt b 6 h.dl)
      let src := d.2.reads .irq (locsAt b (6 + h.dl) h.sl)
      let body := src.2.reads .irq (locsAt b (6 + h.dl + h.sl) h.n)
      let trailer := body.2.reads .irq (locsAt b (1 + L) 2)
      (head.1 ++ d.1 ++ src.1 ++ body.1 ++ trailer.1, trailer.2) := by
  simp only [rxTailLocs_eq, reads_append]

/-- A frame committed, in a state after its head (42 R142 lines 5 to 11). -/
def State.committed (s : State) (L : Byte) (fcf : Half) (h : RxShape) : State :=
  let tail := s.reads .irq (rxTailLocs s.par.reg.rxfifo L.toNat h)
  ((tail.2.setRxRec (recordOfReads L fcf h tail.1)).afterBusWrite .irq s.par.reg.rxctl s.par.reg.vRxen).setRxEvent
    (satInc8 s.rxEvent)

@[simp] theorem reads_rxEvent (c : Ctx) (ls : List Loc) (s : State) : (s.reads c ls).2.rxEvent = s.rxEvent := by
  rw [reads_frame]

@[simp] theorem reads_rxRec (c : Ctx) (ls : List Loc) (s : State) : (s.reads c ls).2.rxRec = s.rxRec := by
  rw [reads_frame]

/-- The end of a commit: the record in one step, reception restarted, the event counted (42 R142 lines 10 and 11). -/
theorem IrqRuns.commitRecord {t : State} (ht : Still t) {l : Loc} (hl : l.inRange = true) (v : Byte) (r : RxRec) :
    IrqRuns (do
        irqElem (Op.update (·.setRxRec r))
        irqWrite l v
        irqElem (Op.update fun s => s.setRxEvent (satInc8 s.rxEvent))) t ()
      (((t.setRxRec r).afterBusWrite .irq l v).setRxEvent (satInc8 t.rxEvent)) :=
  have hrec : Still (t.setRxRec r) := ht
  IrqRuns.bind (IrqRuns.update ht fun _ => rfl) <| IrqRuns.bind (IrqRuns.write v hrec hl) <|
    IrqRuns.update (hrec.write .irq l v) fun _ => rfl

theorem IrqRuns.commitFrame {s : State} (hq : Still s) (hp : s.par.wf = true) {L : Byte} {fcf : Half} {h : RxShape}
    (hs : rxShape s.par L.toNat fcf = some h) :
    IrqRuns (Machine.commitFrame s.par L fcf h) s () (s.committed L fcf h) := by
  obtain ⟨-, -, -, hrx⟩ := RegMap.ranges (Params.reg_wf hp)
  obtain ⟨-, -, hhdr, hL, -, hmax⟩ := rxShape_eq_some hs
  have hread (n : Nat) (hn : n < 130) : (locPlus s.par.reg.rxfifo n).inRange = true := locPlus_inRange hrx hn
  have hpayload : 1 + h.hdr = 6 + h.dl + h.sl := by omega
  have hrssi : 2 + L.toNat = 1 + L.toNat + 1 := by omega
  have hhead := hq.reads .irq (locsAt s.par.reg.rxfifo 3 3)
  have hd := hhead.reads .irq (locsAt s.par.reg.rxfifo 6 h.dl)
  have hsrc := hd.reads .irq (locsAt s.par.reg.rxfifo (6 + h.dl) h.sl)
  have hbody := hsrc.reads .irq (locsAt s.par.reg.rxfifo (6 + h.dl + h.sl) h.n)
  have htail := hbody.reads .irq (locsAt s.par.reg.rxfifo (1 + L.toNat) 2)
  simp only [Machine.commitFrame, State.committed, reads_rxTailLocs, hpayload, hrssi]
  refine IrqRuns.bind (IrqRuns.read hq (hread 3 (by decide))) <|
    IrqRuns.bind (IrqRuns.read (hq.read _ _) (hread 4 (by decide))) <|
    IrqRuns.bind (IrqRuns.read ((hq.read _ _).read _ _) (hread 5 (by decide))) <|
    IrqRuns.bind (IrqRuns.readFifo hrx 6 h.dl hhead (by omega)) <|
    IrqRuns.bind (IrqRuns.readFifo hrx (6 + h.dl) h.sl hd (by omega)) <|
    IrqRuns.bind (IrqRuns.readFifo hrx (6 + h.dl + h.sl) h.n hsrc (by omega)) <|
    IrqRuns.bind (IrqRuns.read hbody (hread _ (by omega))) <|
    IrqRuns.bind (IrqRuns.read (hbody.read _ _) (hread _ (by omega))) ?_
  rw [← recordOfReads_parts L fcf _ _ _ _ _ (by simp) (by simp) (by simp)]
  have hrxctl : s.par.reg.rxctl.inRange = true := reg_inRange hp
  have hcommit := IrqRuns.commitRecord htail hrxctl s.par.reg.vRxen
  simp only [reads_rxEvent] at hcommit
  exact hcommit _

/-- The length byte that `RXPATH` reads. -/
abbrev State.headLen (s : State) : Byte := byteAt s.rxHead.1 0

/-- The FrameControl that `RXPATH` reads, low byte first. -/
abbrev State.headFcf (s : State) : Half := half (byteAt s.rxHead.1 2) (byteAt s.rxHead.1 1)

@[simp] theorem rxHead_par (s : State) : s.rxHead.2.par = s.par := reads_par .irq _ _
@[simp] theorem rxHead_rxRec (s : State) : s.rxHead.2.rxRec = s.rxRec := reads_rxRec .irq _ _
@[simp] theorem rxHead_rxEvent (s : State) : s.rxHead.2.rxEvent = s.rxEvent := reads_rxEvent .irq _ _

theorem received_of_dropped {s : State} (h : rxShape s.par s.headLen.toNat s.headFcf = none) :
    s.received = s.rxHead.2.afterBusWrite .irq s.par.reg.rxctl s.par.reg.vRxen := by
  simp only [State.received, h]

theorem received_of_shape {s : State} {h : RxShape} (hs : rxShape s.par s.headLen.toNat s.headFcf = some h) :
    s.received = s.rxHead.2.committed s.headLen s.headFcf h := by
  simp only [State.received, hs, State.committed, rxHead_par, rxHead_rxEvent]

theorem Still.rxHead {s : State} (h : Still s) : Still s.rxHead.2 := (h.write _ _ _).reads _ _

theorem Still.committed {s : State} (hs : Still s) (L : Byte) (fcf : Half) (h : RxShape) :
    Still (s.committed L fcf h) :=
  Still.write (s := State.setRxRec _ _) (hs.reads .irq _) .irq _ _

theorem Still.received {s : State} (h : Still s) : Still s.received := by
  cases hs : rxShape s.par s.headLen.toNat s.headFcf with
  | none => rw [received_of_dropped hs]; exact h.rxHead.write _ _ _
  | some x => rw [received_of_shape hs]; exact h.rxHead.committed _ _ x

/-- `RXPATH` with no move of the environment: the head, then the drop or the commit. -/
theorem IrqRuns.opRxpath {s : State} (hq : Still s) (hp : s.par.wf = true) :
    IrqRuns Machine.opRxpath s () s.received := by
  obtain ⟨-, -, -, hrx⟩ := RegMap.ranges (Params.reg_wf hp)
  have hread (n : Nat) (hn : n < 130) : (locPlus s.par.reg.rxfifo n).inRange = true := locPlus_inRange hrx hn
  have h0 := hq.write .irq s.par.reg.rxctl s.par.reg.vRxdis
  refine IrqRuns.bind (IrqRuns.view fun _ => rfl) <| IrqRuns.bind (IrqRuns.write _ hq (reg_inRange hp)) <|
    IrqRuns.bind (IrqRuns.read h0 (hread 0 (by decide))) <|
    IrqRuns.bind (IrqRuns.read (h0.read _ _) (hread 1 (by decide))) <|
    IrqRuns.bind (IrqRuns.read ((h0.read _ _).read _ _) (hread 2 (by decide))) ?_
  show IrqRuns (match rxShape s.par s.headLen.toNat s.headFcf with
    | none => irqWrite s.par.reg.rxctl s.par.reg.vRxen
    | some h => Machine.commitFrame s.par s.headLen s.headFcf h) s.rxHead.2 () s.received
  cases hs : rxShape s.par s.headLen.toNat s.headFcf with
  | none =>
    rw [received_of_dropped hs]
    exact IrqRuns.write _ hq.rxHead (reg_inRange hp)
  | some x =>
    rw [received_of_shape hs]
    simpa only [rxHead_par] using IrqRuns.commitFrame hq.rxHead ((rxHead_par s).symm ▸ hp) ((rxHead_par s).symm ▸ hs)

/-! ## The rows of the interrupt context, alone (42 R141, R144) -/

theorem IrqFrame.par {s t : State} (h : IrqFrame s t) : t.par = s.par := by rw [h]
theorem IrqFrame.irqCtl {s t : State} (h : IrqFrame s t) : t.irqCtl = s.irqCtl := by rw [h]
theorem IrqFrame.irqActive {s t : State} (h : IrqFrame s t) : t.irqActive = s.irqActive := by rw [h]
theorem IrqFrame.mainCtl {s t : State} (h : IrqFrame s t) : t.mainCtl = s.mainCtl := by rw [h]

theorem IrqFrame.reads (c : Ctx) (ls : List Loc) (s : State) : IrqFrame s (s.reads c ls).2 := by
  unfold IrqFrame
  rw [reads_frame]

theorem IrqFrame.committed (s : State) (L : Byte) (fcf : Half) (h : RxShape) : IrqFrame s (s.committed L fcf h) :=
  (IrqFrame.reads .irq (rxTailLocs s.par.reg.rxfifo L.toNat h) s).trans rfl

theorem IrqFrame.rxHead (s : State) : IrqFrame s s.rxHead.2 :=
  IrqFrame.trans (t := s.afterBusWrite .irq s.par.reg.rxctl s.par.reg.vRxdis) rfl (IrqFrame.reads .irq _ _)

theorem IrqFrame.received (s : State) : IrqFrame s s.received := by
  cases hs : rxShape s.par s.headLen.toNat s.headFcf with
  | none => rw [received_of_dropped hs]; exact (IrqFrame.rxHead s).trans rfl
  | some x => rw [received_of_shape hs]; exact (IrqFrame.rxHead s).trans (IrqFrame.committed _ _ _ x)

theorem IrqFrame.completed (s : State) : IrqFrame s s.completed := rfl

theorem IrqFrame.serviced (s : State) : IrqFrame s s.serviced := by
  have hpath {b : Bool} {t u : State} (h : IrqFrame t u) : IrqFrame s t → IrqFrame s (if b then u else t) := by
    intro ht
    cases b
    · exact ht
    · exact ht.trans h
  exact hpath (IrqFrame.completed _) (hpath (IrqFrame.received _) rfl)

theorem setIrqCtl_of_eq {s : State} {c : Ctl} (h : s.irqCtl = c) : s.setIrqCtl c = s := by subst h; rfl

/-- A path of the interrupt context that runs to its end from IDLE. -/
theorem runIrqPath_runs {i : Instr} {x : Op Unit} {s t : State} (hidle : s.irqCtl = .idle) (h : IrqRuns x s () t)
    (hf : IrqFrame s t) : runIrqPath i x s = .next t := by
  obtain ⟨d, hd⟩ := h (.running i 0)
  unfold runIrqPath
  rw [hidle]
  simp only [hd]
  exact congrArg _ (setIrqCtl_of_eq (hf.irqCtl.trans hidle))

theorem exec_rxpath {s : State} (hs : RunReady s) : exec .rxpath s = .next s.received := by
  obtain ⟨hidle, hmoves, hstuck, hp⟩ := hs
  exact runIrqPath_runs hidle (IrqRuns.opRxpath ⟨hmoves, hstuck⟩ hp) (IrqFrame.received s)

/-- `TXPATH` with no move of the environment. -/
theorem IrqRuns.opTxpath {s : State} (hq : Still s) (hp : s.par.wf = true) :
    IrqRuns Machine.opTxpath s () s.completed :=
  have hread := hq.read .irq s.par.reg.txstat
  have hrec (r : TxRec) : Still ((s.afterBusRead .irq s.par.reg.txstat).setTxRec r) := hread
  IrqRuns.bind (IrqRuns.view fun _ => rfl) <| IrqRuns.bind (IrqRuns.read hq (reg_inRange hp)) <|
    IrqRuns.bind (IrqRuns.update hread fun _ => rfl) <| IrqRuns.update (hrec _) fun _ => rfl

theorem exec_txpath {s : State} (hs : RunReady s) : exec .txpath s = .next s.completed := by
  obtain ⟨hidle, hmoves, hstuck, hp⟩ := hs
  exact runIrqPath_runs hidle (IrqRuns.opTxpath ⟨hmoves, hstuck⟩ hp) (IrqFrame.completed s)

theorem IrqRuns.ite {b : Bool} {x : Op Unit} {s t : State} (h : IrqRuns x s () t) :
    IrqRuns (if b then x else Pure.pure ()) s () (if b then t else s) := by
  cases b
  · exact IrqRuns.pure () s
  · exact h

/-- The body of `IRQ` with no move of the environment. -/
theorem IrqRuns.opIrq {s : State} (hq : Still s) (hp : s.par.wf = true) : IrqRuns Machine.opIrq s () s.serviced := by
  have hread := hq.read .irq s.par.reg.intstat
  refine IrqRuns.bind (IrqRuns.view fun _ => rfl) <| IrqRuns.bind (IrqRuns.read hq (reg_inRange hp)) <|
    IrqRuns.bind (IrqRuns.ite (IrqRuns.opRxpath hread hp)) <| ?_
  have hpath {b : Bool} {t : State} (ht : Still t) (hpar : t.par = s.par) :
      Still (if b then t.received else t) ∧ (if b then t.received else t).par = s.par := by
    cases b
    · exact ⟨ht, hpar⟩
    · exact ⟨ht.received, (IrqFrame.received t).par.trans hpar⟩
  obtain ⟨hstill, hpar⟩ := hpath (b := rxReady s.par.reg (s.env.read s.par.reg s.par.reg.intstat).1) hread rfl
  exact IrqRuns.ite (IrqRuns.opTxpath hstill (hpar.symm ▸ hp))

theorem txRecOf_retries_toNat (r : RegMap) (t : Byte) : (txRecOf r t).retries.toNat = t.toNat / 64 := by
  have hfield : (txRecOf r t).retries.toNat = t.toNat >>> 6 % 2 ^ 2 := BitVec.extractLsb'_toNat 6 2 t
  rw [hfield, Nat.shiftRight_eq_div_pow]
  omega

theorem completed_txRec (s : State) :
    s.completed.txRec = txRecOf s.par.reg (s.env.read s.par.reg s.par.reg.txstat).1 := rfl

/-- Settles O33: `exec_txpath`, and the fields of the status byte (30 R78). -/
theorem txpathCompletes : Obligations.TxpathCompletes := by
  intro s hs
  rw [completed_txRec]
  exact ⟨exec_txpath hs, rfl, txRecOf_retries_toNat _ _, rfl, rfl, satInc8_toNat s.txEvent⟩

/-- The record of a committed frame fits its FrameControl (10 R37 (c)). -/
theorem recordOfReads_fits {p : Params} {L : Byte} {fcf : Half} {h : RxShape} (hs : rxShape p L.toNat fcf = some h)
    {tail : List Byte} (ht : 3 + h.dl + h.sl + h.n ≤ tail.length) : (recordOfReads L fcf h tail).Fits p := by
  obtain ⟨hdl, hsl, hhdr, hL, hn, hmax⟩ := rxShape_eq_some hs
  refine ⟨hhdr, hdl, hsl, hL, hn, hmax, ?_, ?_, ?_⟩ <;> simp [recordOfReads] <;> omega

@[simp] theorem rxTailLocs_length (b : Loc) (L : Nat) (h : RxShape) :
    (rxTailLocs b L h).length = 3 + h.dl + h.sl + h.n + 2 := by simp [rxTailLocs]

theorem afterBusWrite_bus_length (s : State) (c : Ctx) (l : Loc) (v : Byte) :
    (s.afterBusWrite c l v).bus.length = s.bus.length + 1 := writes_bus_length c [(l, v)] s

theorem rxHead_bus_length (s : State) : s.rxHead.2.bus.length = s.bus.length + 4 := by
  rw [State.rxHead, reads_bus_length, afterBusWrite_bus_length, locsAt_length]

/-- Settles O32: the shape decides between the drop and the commit, and the drop condition says which (42 R143). -/
theorem rxpathReceives : Obligations.RxpathReceives := by
  refine ⟨fun p L f => ⟨rxShape_eq_none_iff p L f, rxShape_of_not_dropped⟩,
    fun s hs => ⟨exec_rxpath hs, ?drop, ?commit⟩⟩
  case drop =>
    intro hdrop
    rw [received_of_dropped (rxShape_of_dropped hdrop)]
    rw [afterBusWrite_rxRec, afterBusWrite_rxEvent, afterBusWrite_bus_length, rxHead_bus_length]
    exact ⟨rxHead_rxRec s, rxHead_rxEvent s, rfl⟩
  case commit =>
    intro hdrop
    have hshape := rxShape_of_not_dropped hdrop
    rw [received_of_shape hshape]
    refine ⟨rfl, recordOfReads_fits hshape (by simp), ?_⟩
    exact (satInc8_toNat _).trans (by rw [rxHead_rxEvent])

/-! ## `RXPATH` on the image of a received frame (42 R142, 30 R77, 20 R66 law (2)) -/

/-- A location that a law fixes, `A_INTSTAT` apart, is read as the byte known of it, and the read changes nothing
(20 R66). -/
theorem Env.read_fixed {r : RegMap} {e : Env} {l : Loc} {v : Byte} (hscripts : e.scripts = []) (hl : l ≠ r.intstat)
    (hfixed : e.fixed r l = true) (hv : e.peek l = some v) : e.read r l = (v, e) := by
  have hanswer : e.answer r l = (v, e) := by simp [Env.answer, hscripts, takeScript, hl, hfixed, hv]
  simp [Env.read, hanswer, Env.afterRead, hl]

theorem locPlus_inWindow {l : Loc} {n k m : Nat} (h : l.windowInRange n = true) (hk : k < n) (hm : k < m) :
    (locPlus l k).inWindow l m = true := by
  have hfits : l.addr.toNat + n ≤ l.space.size := of_decide_eq_true h
  have hsize : l.space.size ≤ 1024 := by cases l.space <;> simp [Space.size]
  have haddr : (locPlus l k).addr.toNat = l.addr.toNat + k := by
    show (l.addr + BitVec.ofNat 12 k).toNat = _
    rw [BitVec.toNat_add, BitVec.toNat_ofNat]
    omega
  have hspace : (locPlus l k).space = l.space := rfl
  simp only [Loc.inWindow, haddr, hspace, Bool.and_eq_true, decide_eq_true_eq, true_and]
  omega

/-- The reads of the RX FIFO window answer the bytes of the image and have no side effect: no script answers, reception
is off, and the status register is elsewhere. -/
structure ShowsImage (image : List Byte) (s : State) : Prop where
  window : s.par.reg.rxfifo.windowInRange 130 = true
  apart : inRxFifo s.par.reg s.par.reg.intstat = false
  scripts : s.env.scripts = []
  off : s.env.rxEnabled = false
  length : image.length ≤ s.env.imageLen
  bytes : ∀ i < 130, i < image.length → s.env.peek (locPlus s.par.reg.rxfifo i) = image[i]?

namespace ShowsImage

theorem read {image : List Byte} {s : State} (h : ShowsImage image s) {i : Nat} (hi : i < image.length)
    (hmax : i < 130) : s.env.read s.par.reg (locPlus s.par.reg.rxfifo i) = (image[i], s.env) := by
  have hne : locPlus s.par.reg.rxfifo i ≠ s.par.reg.intstat := fun he => by
    have hin : inRxFifo s.par.reg s.par.reg.intstat = true := he ▸ locPlus_inWindow h.window hmax hmax
    rw [h.apart] at hin
    cases hin
  have himage := locPlus_inWindow h.window hmax (hi.trans_le h.length)
  refine Env.read_fixed h.scripts hne ?_ ?_
  · simp [Env.fixed, himage, h.off]
  · rw [h.bytes i hmax hi, List.getElem?_eq_getElem hi]

/-- A read of a byte of the image leaves the image there. -/
theorem afterBusRead {image : List Byte} {s : State} (h : ShowsImage image s) (c : Ctx) {i : Nat}
    (hi : i < image.length) (hmax : i < 130) : ShowsImage image (s.afterBusRead c (locPlus s.par.reg.rxfifo i)) := by
  have henv : (s.afterBusRead c (locPlus s.par.reg.rxfifo i)).env = s.env.tickBus := by
    rw [afterBusRead_env, h.read hi hmax]
  constructor
  · exact h.window
  · exact h.apart
  all_goals rw [henv]
  · exact h.scripts
  · exact h.off
  · exact h.length
  · exact h.bytes

/-- A run of reads within the image gives its bytes. -/
theorem reads {image : List Byte} {s : State} (h : ShowsImage image s) (c : Ctx) (off n : Nat)
    (hn : off + n ≤ image.length) (hmax : off + n ≤ 130) :
    (s.reads c (locsAt s.par.reg.rxfifo off n)).1 = (image.drop off).take n ∧
      ShowsImage image (s.reads c (locsAt s.par.reg.rxfifo off n)).2 := by
  induction n generalizing off s with
  | zero => exact ⟨List.take_zero.symm, h⟩
  | succ n ih =>
    have hi : off < image.length := by omega
    obtain ⟨hbytes, hshows⟩ := ih (h.afterBusRead c hi (by omega)) (off + 1) (by omega) (by omega)
    refine ⟨?_, hshows⟩
    rw [List.drop_eq_getElem_cons hi, List.take_succ_cons, ← hbytes]
    simp only [locsAt, State.reads, h.read hi (by omega)]
    rfl

/-- Once reception is off, the image of the last frame is what the FIFO's reads answer (20 R66 law (2)). -/
theorem of_holdsImage {image : List Byte} {s : State} (hp : s.par.wf = true) (hfifo : FifoApart s.par.reg)
    (h : HoldsImage s image) : ShowsImage image (s.afterBusWrite .irq s.par.reg.rxctl s.par.reg.vRxdis) := by
  obtain ⟨-, -, -, hrx⟩ := RegMap.ranges (Params.reg_wf hp)
  obtain ⟨hplain, hrxctl, hintstat⟩ := hfifo
  obtain ⟨hscripts, hlen, hbytes⟩ := h
  refine ⟨hrx, hintstat, (afterBusWrite_scripts _ _ _ _).trans hscripts, ?off, ?length, fun i hmax hi => ?bytes⟩
  case off => exact (Env.write_rxctl s.par.reg s.env s.par.reg.vRxdis).1 rfl
  case length =>
    have hkept := Env.write_imageLen s.par.reg s.env s.par.reg.rxctl s.par.reg.vRxdis hplain.1 hplain.2
    rw [hrxctl] at hkept
    exact hlen.trans hkept.ge
  case bytes =>
    have hne : locPlus s.par.reg.rxfifo i ≠ s.par.reg.rxctl := fun he => by
      have hin : inRxFifo s.par.reg s.par.reg.rxctl = true := he ▸ locPlus_inWindow hrx hmax hmax
      rw [hrxctl] at hin
      cases hin
    exact (peek_afterBusWrite_other .irq _ hplain hne).trans (hbytes i hi)

end ShowsImage

theorem byteAt_take {l : List Byte} {n k : Nat} (h : k < n) : byteAt (l.take n) k = byteAt l k := by
  simp [byteAt, List.getD_eq_getElem?_getD, h]

theorem byteAt_append_left {l m : List Byte} {k : Nat} (h : k < l.length) : byteAt (l ++ m) k = byteAt l k :=
  List.getD_append _ _ _ _ h

theorem byteAt_append_right {l m : List Byte} {k : Nat} (h : l.length ≤ k) :
    byteAt (l ++ m) k = byteAt m (k - l.length) := List.getD_append_right _ _ _ _ h

theorem byteAt_drop (l : List Byte) (n k : Nat) : byteAt (l.drop n) k = byteAt l (n + k) := by
  simp [byteAt, List.getD_eq_getElem?_getD]

/-- The bytes of an image that the tail of `RXPATH` reads (30 R77). -/
def imageTail (h : RxShape) (L : Nat) (image : List Byte) : List Byte :=
  (image.drop 3).take (3 + h.dl + h.sl + h.n) ++ (image.drop (1 + L)).take 2

/-- A field within the first part of a tail stands in the image three bytes further. -/
theorem field_of_tail {image rest : List Byte} {m k j off : Nat} (hm : 3 + m ≤ image.length) (hk : k + j ≤ m)
    (hoff : off = 3 + k) : (((image.drop 3).take m ++ rest).drop k).take j = (image.drop off).take j := by
  subst hoff
  have hlen : ((image.drop 3).take m).length = m := by simp; omega
  rw [List.drop_append_of_le_length (by omega), List.take_append_of_le_length (by rw [List.length_drop]; omega),
    List.drop_take, List.take_take, List.drop_drop, Nat.min_eq_left (by omega)]

/-- The record made of the reads is the parser's record of the image. -/
theorem recordOfReads_imageTail {p : Params} {image : List Byte} {h : RxShape}
    (hs : rxShape p (byteAt image 0).toNat (half (byteAt image 2) (byteAt image 1)) = some h)
    (hlen : 3 + (byteAt image 0).toNat ≤ image.length) :
    recordOfReads (byteAt image 0) (half (byteAt image 2) (byteAt image 1)) h
        (imageTail h (byteAt image 0).toNat image) =
      recordOf h image := by
  obtain ⟨-, -, hhdr, hL, -, -⟩ := rxShape_eq_some hs
  have hfirst : ((image.drop 3).take (3 + h.dl + h.sl + h.n)).length = 3 + h.dl + h.sl + h.n := by simp; omega
  have hhead {k : Nat} (hk : k < 3 + h.dl + h.sl + h.n) :
      byteAt (imageTail h (byteAt image 0).toNat image) k = byteAt image (3 + k) := by
    rw [imageTail, byteAt_append_left (by omega), byteAt_take hk, byteAt_drop]
  have hlast {k i j : Nat} (hk : k < 2) (hj : j = 3 + h.dl + h.sl + h.n + k) (hi : i = 1 + (byteAt image 0).toNat + k) :
      byteAt (imageTail h (byteAt image 0).toNat image) j = byteAt image i := by
    rw [hj, hi, imageTail, byteAt_append_right (by omega), hfirst, Nat.add_sub_cancel_left, byteAt_take hk, byteAt_drop]
  unfold recordOfReads recordOf
  rw [hhead (by omega), hhead (by omega), hhead (by omega)]
  congr 1
  · exact field_of_tail (by omega) (by omega) rfl
  · exact field_of_tail (by omega) (by omega) (by omega)
  · exact field_of_tail (by omega) (by omega) (by omega)
  · exact hlast (k := 0) (by decide) rfl rfl
  · exact hlast (k := 1) (by decide) (by omega) (by omega)

/-- `RXPATH` reads the head of the image. -/
theorem rxHead_of_image {s : State} {image : List Byte} (hp : s.par.wf = true) (hfifo : FifoApart s.par.reg)
    (h : HoldsImage s image) (h3 : 3 ≤ image.length) : s.rxHead.1 = image.take 3 ∧ ShowsImage image s.rxHead.2 :=
  (ShowsImage.of_holdsImage hp hfifo h).reads .irq 0 3 h3 (by decide)

/-- `RXPATH` reads the rest of the image of a frame that is not dropped. -/
theorem ShowsImage.rxTail {image : List Byte} {s : State} (hshows : ShowsImage image s) {L : Nat} {f : Half}
    {h : RxShape} (hs : rxShape s.par L f = some h) (hlen : 3 + L ≤ image.length) :
    (s.reads .irq (rxTailLocs s.par.reg.rxfifo L h)).1 = imageTail h L image := by
  obtain ⟨-, -, hhdr, hL, -, hmax⟩ := rxShape_eq_some hs
  obtain ⟨hfirst, hshows⟩ := hshows.reads .irq 3 (3 + h.dl + h.sl + h.n) (by omega) (by omega)
  obtain ⟨hlast, -⟩ := hshows.reads .irq (1 + L) 2 (by omega) (by omega)
  rw [reads_par] at hlast
  rw [rxTailLocs, reads_append, hfirst, hlast, imageTail]

/-- Settles O36: the reads of `RXPATH` are the bytes of the image, and the record made of them is the parser's. -/
theorem rxpathParsesImage : Obligations.RxpathParsesImage := by
  intro s image hs hfifo himage h3 hcomplete
  have ⟨_, _, _, hp⟩ := hs
  obtain ⟨hhead, hshows⟩ := rxHead_of_image hp hfifo himage h3
  have hL : s.headLen = byteAt image 0 := by rw [State.headLen, hhead, byteAt_take (by decide)]
  have hfcf : s.headFcf = half (byteAt image 2) (byteAt image 1) := by
    rw [State.headFcf, hhead, byteAt_take (by decide), byteAt_take (by decide)]
  refine ⟨s.received, exec_rxpath hs, fun hdrop => ?commit, fun hdrop => ?drop⟩
  case drop =>
    have hnone := rxShape_of_dropped hdrop
    have hreceived := received_of_dropped (s := s) (by rw [hL, hfcf, hnone])
    rw [hreceived, afterBusWrite_rxRec, afterBusWrite_rxEvent]
    exact ⟨by rw [parseFrame, hnone]; rfl, rxHead_rxRec s, rxHead_rxEvent s⟩
  case commit =>
    obtain ⟨x, hshape⟩ : ∃ x, rxShape s.par _ _ = some x := ⟨_, rxShape_of_not_dropped hdrop⟩
    have hreceived := received_of_shape (s := s) (by rw [hL, hfcf, hshape])
    have htail := hshows.rxTail (by rw [rxHead_par]; exact hshape) (hcomplete hdrop)
    have hrec : s.received.rxRec = recordOf x image := by
      rw [hreceived, hL, hfcf, ← recordOfReads_imageTail hshape (hcomplete hdrop), ← htail]
      rfl
    exact ⟨_, by rw [parseFrame, hshape]; rfl, hrec,
      by rw [hreceived]; exact (satInc8_toNat _).trans (by rw [rxHead_rxEvent])⟩

/-! ## The round trip of a frame (42 R152) -/

/-- The shape of a received frame whose FrameControl has a shape and whose lengths fit (30 R77, 42 R143). -/
theorem rxShape_of_hdrShape {p : Params} {L n : Nat} {f : Half} {h : HdrShape} (hf : hdrShape f = some h)
    (hL : L = hdrLen h + p.rxTrailerLen + n) (hn : n ≤ 116) (hmax : L ≤ 127) :
    rxShape p L f = some ⟨h.dl, h.sl, hdrLen h, n⟩ := by
  have hpayload : L - hdrLen h - p.rxTrailerLen = n := by omega
  unfold rxShape
  rw [hf]
  simp only [Config.maxFrame, Config.maxPayload, hpayload]
  rw [if_neg (by omega), if_neg (by omega), if_neg (by omega)]

/-- The image of a frame whose two trailing bytes follow the rest of the tail at once. -/
theorem imageTail_contiguous {h : RxShape} {tail : List Byte} (ht : tail.length = 3 + h.dl + h.sl + h.n)
    (L lo hi lqi rssi : Byte) {n : Nat} (hn : n = tail.length + 2) :
    imageTail h n ([L, lo, hi] ++ (tail ++ [lqi, rssi])) = tail ++ [lqi, rssi] := by
  have hdrop : ([L, lo, hi] ++ (tail ++ [lqi, rssi])).drop 3 = tail ++ [lqi, rssi] := rfl
  rw [imageTail, show 1 + n = 3 + tail.length by omega, ← List.drop_drop, hdrop, ← ht, List.take_left, List.drop_left]
  rfl

/-- The received image of the frame that `send` builds, part by part (30 R76, R77). -/
theorem rxImageOf_txImage (s : State) (h : HdrShape) (fcf : Half) (payload : List Byte) (lqi rssi : Byte) :
    rxImageOf (txImage s h fcf payload) lqi rssi =
      [countByte (hdrLen h + payload.length), fcf.lo, fcf.hi] ++
        ([s.txSeq, s.cfg.pan.lo, s.cfg.pan.hi] ++ s.rxRec.src.take h.dl ++ srcAddr s.cfg h.sl ++ payload ++
          [lqi, rssi]) := by
  simp [rxImageOf, txImage, txHead]

/-- Without a trailer the parser makes its record of what follows the first three bytes. -/
theorem parseFrame_contiguous {p : Params} {x : RxShape} {L lo hi : Byte} (hs : rxShape p L.toNat (half hi lo) = some x)
    (htrailer : p.rxTrailerLen = 0) {tail : List Byte} (ht : tail.length = 3 + x.dl + x.sl + x.n) (lqi rssi : Byte) :
    parseFrame p ([L, lo, hi] ++ (tail ++ [lqi, rssi])) =
      some (recordOfReads L (half hi lo) x (tail ++ [lqi, rssi])) := by
  obtain ⟨-, -, hhdr, hL, -, -⟩ := rxShape_eq_some hs
  have hlen : 3 + L.toNat ≤ ([L, lo, hi] ++ (tail ++ [lqi, rssi])).length := by
    simp only [List.length_append, List.length_cons, List.length_nil]
    omega
  generalize himage : [L, lo, hi] ++ (tail ++ [lqi, rssi]) = image at hlen ⊢
  have h0 : byteAt image 0 = L := by rw [← himage]; rfl
  have h1 : byteAt image 1 = lo := by rw [← himage]; rfl
  have h2 : byteAt image 2 = hi := by rw [← himage]; rfl
  rw [← h0, ← h1, ← h2] at hs
  rw [← h0] at hlen hL
  have hrecord := recordOfReads_imageTail hs hlen
  have htail := imageTail_contiguous ht L lo hi lqi rssi (n := (byteAt image 0).toNat) (by omega)
  rw [himage] at htail
  rw [htail, h0, h1, h2] at hrecord
  rw [parseFrame, hs, Option.map_some, hrecord]

/-- Settles O37: the parser finds the shape of the FrameControl, and each part of the image in its field. -/
theorem sentFrameParsesBack : Obligations.SentFrameParsesBack := by
  intro s fcf payload h lqi rssi htrailer hfits hf h116 h127 hd
  obtain ⟨-, hsl⟩ := (hdrShape_eq_some fcf h).1 hf
  have hdst := dest_length hfits hd
  have hsrc : (srcAddr s.cfg h.sl).length = h.sl := srcAddr_length hsl
  have hL : (countByte (hdrLen h + payload.length)).toNat = hdrLen h + payload.length := countByte_toNat h127
  have hshape : rxShape s.par (countByte (hdrLen h + payload.length)).toNat (half fcf.hi fcf.lo) =
      some ⟨h.dl, h.sl, hdrLen h, payload.length⟩ := by
    rw [half_hi_lo]
    exact rxShape_of_hdrShape hf (by omega) h116 (by omega)
  have hparsed := parseFrame_contiguous hshape htrailer (lqi := lqi) (rssi := rssi)
    (tail := [s.txSeq, s.cfg.pan.lo, s.cfg.pan.hi] ++ s.rxRec.src.take h.dl ++ srcAddr s.cfg h.sl ++ payload)
    (by simp only [List.length_append, List.length_cons, List.length_nil, hdst, hsrc])
  rw [← rxImageOf_txImage, recordOfReads_parts _ _ _ _ _ _ _ hdst hsrc rfl] at hparsed
  exact ⟨_, hparsed, half_hi_lo fcf, rfl, half_hi_lo s.cfg.pan, rfl, rfl, rfl, rfl, hL, rfl, rfl⟩

/-! ## What an interrupt run does not look at (42 R140, 60 R202)

The main context's control state, `irq_active` and the agenda are neither read nor written by a path of the interrupt
context, so a change of one of them moves past it (`Passes`): `f` before the operation is `f` after it. -/

/-- The end of an operation with `f` applied to its state. -/
def mapEnd {α : Type} (f : State → State) : EStateM.Result Raise State α → EStateM.Result Raise State α
  | .ok a t => .ok a (f t)
  | .error e t => .error e (f t)

/-- The change `f` moves past the operation. -/
def Passes {α : Type} (f : State → State) (x : Op α) : Prop := ∀ s, x (f s) = mapEnd f (x s)

/-- The change `f` is of nothing that the interrupt context or the environment reads or writes. -/
structure Unseen (f : State → State) : Prop where
  par : ∀ s, (f s).par = s.par := by intros; rfl
  irqCtl : ∀ s, (f s).irqCtl = s.irqCtl := by intros; rfl
  rxEvent : ∀ s, (f s).rxEvent = s.rxEvent := by intros; rfl
  txEvent : ∀ s, (f s).txEvent = s.txEvent := by intros; rfl
  runMoves : ∀ s, (f s).env.runMoves = s.env.runMoves := by intros; rfl
  stuckAfter : ∀ s, (f s).env.stuckAfter = s.env.stuckAfter := by intros; rfl
  setIrqCtl : ∀ s c, (f s).setIrqCtl c = f (s.setIrqCtl c) := by intros; rfl
  setRxRec : ∀ s r, (f s).setRxRec r = f (s.setRxRec r) := by intros; rfl
  setTxRec : ∀ s r, (f s).setTxRec r = f (s.setTxRec r) := by intros; rfl
  setRxEvent : ∀ s c, (f s).setRxEvent c = f (s.setRxEvent c) := by intros; rfl
  setTxEvent : ∀ s c, (f s).setTxEvent c = f (s.setTxEvent c) := by intros; rfl
  setRunMoves : ∀ s ms,
    (f s).setEnv { (f s).env with runMoves := ms } = f (s.setEnv { s.env with runMoves := ms }) := by intros; rfl
  envMove : ∀ s m, (f s).envMove m = f (s.envMove m) := by intros; rfl
  answer : ∀ s l, ((f s).env.read s.par.reg l).1 = (s.env.read s.par.reg l).1 := by intros; rfl
  read : ∀ s c l, (f s).afterBusRead c l = f (s.afterBusRead c l) := by intros; rfl
  write : ∀ s c l v, (f s).afterBusWrite c l v = f (s.afterBusWrite c l v) := by intros; rfl

theorem Unseen.setMainCtl (c : Ctl) : Unseen (State.setMainCtl · c) := {}
theorem Unseen.setIrqActive (b : Bool) : Unseen (State.setIrqActive · b) := {}

/-! ### The agenda is unseen -/

/-- The environment with another agenda. -/
def Env.withAgenda (as : List Act) (e : Env) : Env := { e with agenda := as }

theorem Env.mem_withAgenda (as : List Act) (e : Env) (sp : Space) : (e.withAgenda as).mem sp = e.mem sp := by
  cases sp <;> rfl

theorem Env.peek_withAgenda (as : List Act) (e : Env) (l : Loc) : (e.withAgenda as).peek l = e.peek l := by
  unfold Env.peek
  rw [Env.mem_withAgenda]

theorem Env.answer_withAgenda (r : RegMap) (as : List Act) (e : Env) (l : Loc) :
    (e.withAgenda as).answer r l = ((e.answer r l).1, (e.answer r l).2.withAgenda as) := by
  have hfixed : (e.withAgenda as).fixed r l = e.fixed r l := rfl
  have hscripts : (e.withAgenda as).scripts = e.scripts := rfl
  unfold Env.answer
  rw [hscripts, hfixed, Env.peek_withAgenda]
  split
  · rfl
  · split
    · rfl
    · split <;> rfl

theorem Env.read_withAgenda (r : RegMap) (as : List Act) (e : Env) (l : Loc) :
    (e.withAgenda as).read r l = ((e.read r l).1, (e.read r l).2.withAgenda as) := by
  unfold Env.read
  rw [Env.answer_withAgenda]
  unfold Env.afterRead
  split <;> rfl

theorem Env.setMem_withAgenda (as : List Act) (e : Env) (sp : Space) (m : Memory) :
    (e.withAgenda as).setMem sp m = (e.setMem sp m).withAgenda as := by cases sp <;> rfl

theorem Env.poke_withAgenda (as : List Act) (e : Env) (l : Loc) (v : Byte) :
    (e.withAgenda as).poke l v = (e.poke l v).withAgenda as := by
  unfold Env.poke
  rw [Env.setMem_withAgenda, Env.mem_withAgenda]
  split <;> rfl

theorem Env.pokeAll_withAgenda (as : List Act) (e : Env) (l : Loc) (vs : List Byte) :
    (e.withAgenda as).pokeAll l vs = (e.pokeAll l vs).withAgenda as := by
  induction vs generalizing e l with
  | nil => rfl
  | cons v vs ih => rw [Env.pokeAll, Env.poke_withAgenda, ih]; rfl

/-- Every role's effect leaves the agenda alone. -/
theorem Env.roles_withAgenda (r : RegMap) (v : Byte) (as : List Act) :
    (Env.roles r v).Forall fun role => ∀ e : Env, role.2 (e.withAgenda as) = (role.2 e).withAgenda as := by
  refine ⟨fun _ => rfl, fun e => ?flush, fun _ => rfl, fun _ => rfl, fun _ => rfl, fun e => ?enable, fun _ => rfl⟩
  case flush =>
    show Env.flushRx r (e.withAgenda as) = (e.flushRx r).withAgenda as
    unfold Env.flushRx
    rw [Env.mem_withAgenda, Env.setMem_withAgenda]
    rfl
  case enable =>
    show Env.enableCauses r (e.withAgenda as) v = (e.enableCauses r v).withAgenda as
    unfold Env.enableCauses
    split <;> rfl

theorem Env.atRoles_withAgenda {as : List Act} {l : Loc} {roles : List (Loc × (Env → Env))}
    (h : roles.Forall fun role => ∀ e : Env, role.2 (e.withAgenda as) = (role.2 e).withAgenda as) (e : Env) :
    (e.withAgenda as).atRoles l roles = (e.atRoles l roles).withAgenda as := by
  induction roles generalizing e with
  | nil => rfl
  | cons role roles ih =>
    obtain ⟨hrole, hroles⟩ := (List.forall_cons _ _ _).1 h
    have hfirst : (e.withAgenda as).atRole l role.1 role.2 = (e.atRole l role.1 role.2).withAgenda as := by
      unfold Env.atRole
      split
      · exact hrole e
      · rfl
    show Env.atRoles l roles ((e.withAgenda as).atRole l role.1 role.2) = _
    rw [hfirst, ih hroles]
    rfl

theorem Env.write_withAgenda (r : RegMap) (as : List Act) (e : Env) (l : Loc) (v : Byte) :
    (e.withAgenda as).write r l v = (e.write r l v).withAgenda as := by
  have hstored : (e.withAgenda as).stored r l v = (e.stored r l v).withAgenda as := by
    unfold Env.stored
    rw [Env.poke_withAgenda]
    rfl
  rw [Env.write_eq_atRoles, Env.write_eq_atRoles, hstored, Env.atRoles_withAgenda (Env.roles_withAgenda r v as)]

theorem Env.apply_withAgenda (r : RegMap) (as : List Act) (e : Env) (m : EnvMove) :
    (e.withAgenda as).apply r m = (e.apply r m).withAgenda as := by
  cases m with
  | rxFrame image =>
    have hon : (e.withAgenda as).rxEnabled = e.rxEnabled := rfl
    simp only [Env.apply, Env.rxFrame, Env.pokeAll_withAgenda, hon]
    split <;> rfl
  | txDone status => simp only [Env.apply, Env.txDone, Env.poke_withAgenda]; rfl
  | reads l answers => rfl
  | raise causes => rfl
  | line level => rfl
  | change l v => exact Env.poke_withAgenda as e l v
  | stick after => rfl

theorem setAgenda_read (s : State) (as : List Act) (l : Loc) : (s.setAgenda as).env.read s.par.reg l =
    ((s.env.read s.par.reg l).1, (s.env.read s.par.reg l).2.withAgenda as) := Env.read_withAgenda s.par.reg as s.env l

theorem setAgenda_write (s : State) (as : List Act) (l : Loc) (v : Byte) :
    (s.setAgenda as).env.write s.par.reg l v = (s.env.write s.par.reg l v).withAgenda as :=
  Env.write_withAgenda s.par.reg as s.env l v

theorem Unseen.setAgenda (as : List Act) : Unseen (State.setAgenda · as) where
  envMove s m := congrArg s.setEnv (Env.apply_withAgenda s.par.reg as s.env m)
  answer s l := by rw [setAgenda_read]
  read s c l := by
    have hpar : (s.setAgenda as).par = s.par := rfl
    simp only [State.afterBusRead, hpar, setAgenda_read]
    rfl
  write s c l v := by
    have hpar : (s.setAgenda as).par = s.par := rfl
    simp only [State.afterBusWrite, hpar, setAgenda_write]
    rfl

/-! ### The operations of the interrupt context -/

namespace Passes

theorem bind {α β : Type} {f : State → State} {x : Op α} {k : α → Op β} (hx : Passes f x) (hk : ∀ a, Passes f (k a)) :
    Passes f (x >>= k) := by
  intro s
  rw [op_bind, op_bind, hx s]
  cases x s with
  | ok a t => exact hk a t
  | error e t => rfl

theorem pure {α : Type} {f : State → State} (a : α) : Passes f (pure a : Op α) := fun _ => rfl

theorem view {α : Type} {f : State → State} {g : State → α} (h : ∀ s, g (f s) = g s) : Passes f (Op.view g) :=
  fun s => by rw [op_view, op_view, h]; rfl

theorem update {f g : State → State} (h : ∀ s, g (f s) = f (g s)) : Passes f (Op.update g) :=
  fun s => by rw [op_update, op_update, h]; rfl

theorem ite {α : Type} {f : State → State} (b : Prop) [Decidable b] {x y : Op α} (hx : Passes f x) (hy : Passes f y) :
    Passes f (if b then x else y) := by split <;> assumption

section
variable {f : State → State} (hf : Unseen f)
include hf

theorem foldl_envMove (ms : List EnvMove) (s : State) :
    ms.foldl State.envMove (f s) = f (ms.foldl State.envMove s) := by
  induction ms generalizing s with
  | nil => rfl
  | cons m ms ih => rw [List.foldl_cons, hf.envMove, ih]; rfl

theorem runBoundary : Passes f runBoundary := by
  intro s
  unfold Machine.runBoundary
  rw [hf.runMoves]
  cases s.env.runMoves with
  | nil => rfl
  | cons ms rest => simp only [hf.setRunMoves, foldl_envMove hf]; rfl

theorem irqElem {α : Type} {x : Op α} (hx : Passes f x) : Passes f (irqElem x) :=
  bind (runBoundary hf) fun _ => bind (update fun s => by rw [hf.irqCtl, hf.setIrqCtl]) fun _ => hx

theorem irqRead (l : Loc) : Passes f (irqRead l) := by
  refine irqElem hf fun s => ?_
  unfold busRead
  rw [hf.stuckAfter, hf.par, hf.answer, hf.read]
  split
  · rfl
  · split <;> rfl

theorem irqWrite (l : Loc) (v : Byte) : Passes f (irqWrite l v) := by
  refine irqElem hf fun s => ?_
  unfold busWrite
  rw [hf.stuckAfter, hf.write]
  split
  · rfl
  · split <;> rfl

theorem readFifo (b : Loc) (off n : Nat) : Passes f (readFifo b off n) := by
  induction n generalizing off with
  | zero => exact pure _
  | succ n ih => exact bind (irqRead hf _) fun _ => bind (ih _) fun _ => pure _

theorem countRx : Passes f (Machine.irqElem (Op.update fun s => s.setRxEvent (satInc8 s.rxEvent))) :=
  irqElem hf (update fun s => by rw [hf.rxEvent, hf.setRxEvent])

theorem countTx : Passes f (Machine.irqElem (Op.update fun s => s.setTxEvent (satInc8 s.txEvent))) :=
  irqElem hf (update fun s => by rw [hf.txEvent, hf.setTxEvent])

theorem commitFrame (p : Params) (L : Byte) (fcf : Half) (h : RxShape) : Passes f (commitFrame p L fcf h) :=
  bind (irqRead hf _) fun _ => bind (irqRead hf _) fun _ => bind (irqRead hf _) fun _ =>
    bind (readFifo hf _ _ _) fun _ => bind (readFifo hf _ _ _) fun _ => bind (readFifo hf _ _ _) fun _ =>
    bind (irqRead hf _) fun _ => bind (irqRead hf _) fun _ =>
    bind (irqElem hf (update fun s => hf.setRxRec s _)) fun _ => bind (irqWrite hf _ _) fun _ => countRx hf

theorem opRxpath : Passes f opRxpath := by
  refine bind (view hf.par) fun p => bind (irqWrite hf _ _) fun _ => bind (irqRead hf _) fun L =>
    bind (irqRead hf _) fun lo => bind (irqRead hf _) fun hi => ?_
  split
  · exact irqWrite hf _ _
  · exact commitFrame hf _ _ _ _

theorem opTxpath : Passes f opTxpath :=
  bind (view hf.par) fun _ => bind (irqRead hf _) fun _ => bind (irqElem hf (update fun s => hf.setTxRec s _)) fun _ =>
    countTx hf

theorem opIrq : Passes f opIrq :=
  bind (view hf.par) fun _ => bind (irqRead hf _) fun _ => bind (ite _ (opRxpath hf) (pure _)) fun _ =>
    ite _ (opTxpath hf) (pure _)

/-- A change that does not concern `irq_active` moves past a whole run. -/
theorem irqRun (hactive : ∀ s b, (f s).setIrqActive b = f (s.setIrqActive b)) : Passes f irqRun := by
  have henter (s : State) : enterIrq (f s) = f (enterIrq s) := by
    rw [enterIrq, enterIrq, hactive, hf.setIrqCtl]
  have hreturn (t : State) : returnIrq (f t) = f (returnIrq t) := by
    rw [returnIrq, returnIrq, hactive, hf.setIrqCtl]
  intro s
  unfold Machine.irqRun
  rw [henter, opIrq hf (enterIrq s)]
  cases Machine.opIrq (enterIrq s) with
  | ok a t => exact congrArg _ (hreturn t)
  | error e t =>
    cases e with
    | code c => exact congrArg _ (hreturn t)
    | fault e => rfl

end

end Passes

/-! ## A whole run (42 R140, R141) -/

theorem setIrqActive_of_eq {s : State} {b : Bool} (h : s.irqActive = b) : s.setIrqActive b = s := by subst h; rfl

/-- A run with no move of the environment leaves what its body leaves: entry and return cancel out. -/
theorem irqRun_alone {s : State} (hs : RunReady s) (hentry : entryCond s = true) : irqRun s = .ok () s.serviced := by
  obtain ⟨hidle, hmoves, hstuck, hp⟩ := hs
  obtain ⟨-, -, hactive, -⟩ := (entryCond_iff s).1 hentry
  have hframe := IrqFrame.serviced s
  obtain ⟨d, hd⟩ := IrqRuns.opIrq ⟨hmoves, hstuck⟩ hp (.running .irq 0)
  have hbody : opIrq (enterIrq s) = .ok () ((s.serviced.setIrqCtl d).setIrqActive true) :=
    (Passes.opIrq (Unseen.setIrqActive true) (s.setIrqCtl (.running .irq 0))).trans (by rw [hd]; rfl)
  have hreturn : returnIrq ((s.serviced.setIrqCtl d).setIrqActive true) =
    (s.serviced.setIrqActive false).setIrqCtl .idle := rfl
  unfold irqRun
  rw [hbody]
  simp only [hreturn]
  rw [setIrqActive_of_eq (hframe.irqActive.trans hactive), setIrqCtl_of_eq (hframe.irqCtl.trans hidle)]

theorem execIrq_of_run {s t : State} (hentry : entryCond s = true) (h : irqRun s = .ok () t) : execIrq s = .next t := by
  simp only [execIrq, hentry, h, if_true]

/-- A row `IRQ` that ends in a next state is a run under the entry condition. -/
theorem run_of_execIrq {s t : State} (hentry : entryCond s = true) (h : execIrq s = .next t) : irqRun s = .ok () t := by
  have hframe := irqRun_frame hentry
  unfold execIrq at h
  rw [if_pos hentry] at h
  cases hx : irqRun s with
  | ok a u => rw [hx] at h; cases h; rfl
  | error e u =>
    rw [hx] at h hframe
    obtain ⟨f, rfl⟩ := hframe
    cases h

/-- Settles O34: the body of the run, between an entry and a return that cancel out. -/
theorem irqServices : Obligations.IrqServices := fun _ hs hentry => execIrq_of_run hentry (irqRun_alone hs hentry)

/-! ## A point between two steps (42 R140)

What the agenda still holds when a boundary is drained does not matter: the boundary itself sets what is left of it. -/

/-- How an operation ends, the state of an early end forgotten, as the end of a row forgets it. -/
def ending {α : Type} : EStateM.Result Raise State α → Except Raise (α × State)
  | .ok a t => .ok (a, t)
  | .error e _ => .error e

theorem ending_eq_ok_iff {α : Type} (x : EStateM.Result Raise State α) (a : α) (t : State) :
    ending x = .ok (a, t) ↔ x = .ok a t := by
  cases x with
  | ok b u => simp [ending]
  | error e u => simp [ending]

theorem ok_of_ending_eq {α : Type} {x y : EStateM.Result Raise State α} (h : ending x = ending y) (a : α) (t : State) :
    x = .ok a t ↔ y = .ok a t := by rw [← ending_eq_ok_iff, h, ending_eq_ok_iff]

theorem drain_startIrq {s t : State} (as : List Act) (hentry : entryCond s = true) (h : irqRun s = .ok () t) :
    drain (.startIrq :: as) s = drain as t := (if_pos hentry).trans (by rw [h])

theorem drain_startIrq_fault {s t : State} {e : Raise} (as : List Act) (hentry : entryCond s = true)
    (h : irqRun s = .error e t) : drain (.startIrq :: as) s = .error e t := (if_pos hentry).trans (by rw [h])

theorem drain_startIrq_refused {s : State} (as : List Act) (hentry : ¬ entryCond s = true) :
    drain (.startIrq :: as) s = drain as s := if_neg hentry

theorem ending_drain_setAgenda (as bs : List Act) (s : State) :
    ending (drain as (s.setAgenda bs)) = ending (drain as s) := by
  induction as generalizing s with
  | nil => rfl
  | cons a as ih =>
    cases a with
    | proceed => rfl
    | env m =>
      show ending (drain as ((s.setAgenda bs).envMove m)) = ending (drain as (s.envMove m))
      rw [(Unseen.setAgenda bs).envMove, ih]
    | startIrq =>
      by_cases hentry : entryCond s = true
      · have hentry' : entryCond (s.setAgenda bs) = true := hentry
        have hrun := Passes.irqRun (Unseen.setAgenda bs) (fun _ _ => rfl) s
        cases hx : irqRun s with
        | ok a t =>
          rw [hx] at hrun
          rw [drain_startIrq as hentry hx, drain_startIrq as hentry' hrun, ih]
        | error e t =>
          rw [hx] at hrun
          rw [drain_startIrq_fault as hentry hx, drain_startIrq_fault as hentry' hrun]
          rfl
      · have hentry' : ¬ entryCond (s.setAgenda bs) = true := hentry
        rw [drain_startIrq_refused as hentry, drain_startIrq_refused as hentry', ih]

theorem boundary_eq (s : State) : boundary s = drain s.env.agenda s := rfl

/-- A boundary whose agenda begins with a run that is not admitted goes on as without it. -/
theorem ending_boundary_refused {s : State} {as : List Act} (hentry : ¬ entryCond s = true)
    (h : s.env.agenda = .startIrq :: as) : ending (boundary s) = ending (boundary (s.setAgenda as)) := by
  have hagenda : (s.setAgenda as).env.agenda = as := rfl
  rw [boundary_eq, boundary_eq, h, hagenda, drain_startIrq_refused as hentry, ending_drain_setAgenda]

/-- A boundary whose agenda begins with a run that is admitted goes on from the state after the run. -/
theorem ending_boundary_run {s u : State} {as : List Act} (hentry : entryCond s = true)
    (h : s.env.agenda = .startIrq :: as) (hrun : irqRun s = .ok () u) :
    ending (boundary s) = ending (boundary (u.setAgenda as)) := by
  have hagenda : (u.setAgenda as).env.agenda = as := rfl
  rw [boundary_eq, boundary_eq, h, hagenda, drain_startIrq as hentry hrun, ending_drain_setAgenda]

/-- With the agenda exhausted and no run admitted, a boundary changes nothing. -/
theorem boundary_exhausted {s : State} (hentry : ¬ entryCond s = true) (h : s.env.agenda = []) :
    boundary s = .ok () s := by
  have hdrain : drain [] s = .ok () (s.setAgenda []) := if_neg hentry
  rw [boundary_eq, h, hdrain, setAgenda_nil h]

/-- `proceed` alone changes nothing but the agenda, which is then exhausted. -/
theorem boundary_proceed {s : State} (h : s.env.agenda = []) : boundary (s.setAgenda [.proceed]) = .ok () s := by
  have hdrain : drain [.proceed] (s.setAgenda [.proceed]) = .ok () (s.setAgenda []) := rfl
  have hagenda : (s.setAgenda [.proceed]).env.agenda = [.proceed] := rfl
  rw [boundary_eq, hagenda, hdrain, setAgenda_nil h]

/-! ## Rows that begin with a step (42 R140)

A row that `startsWithStep` names makes tests on what no interrupt run writes, and then comes to its first boundary. So
two states that agree on what is tested, and whose boundaries end alike, give the same. -/

/-- `t` has of `s` what a row tests before its first step: configuration, driver status, the decoder's locals. -/
structure SameTests (s t : State) : Prop where
  par : t.par = s.par := by rfl
  drv : t.drv = s.drv := by rfl
  dec : t.dec = s.dec := by rfl

theorem IrqFrame.sameTests {s t : State} (h : IrqFrame s t) : SameTests s t where
  par := by rw [h]
  drv := by rw [h]
  dec := by rw [h]

/-- With the tests as in `s`, the operation comes to a boundary before it does anything. -/
def Opens {α : Type} (s : State) (x : Op α) : Prop :=
  ∃ k : Op α, ∀ t, SameTests s t → x t = (do boundary; k) t

namespace Opens

variable {α β : Type} {s : State}

theorem elem (x : Op α) : Opens s (elem x) := ⟨_, fun _ _ => rfl⟩

theorem bind {x : Op α} (hx : Opens s x) (k : α → Op β) : Opens s (x >>= k) := by
  obtain ⟨j, hj⟩ := hx
  refine ⟨j >>= k, fun t ht => ?_⟩
  rw [op_bind, hj t ht, op_bind, op_bind]
  cases boundary t with
  | ok a u => exact (op_bind j k u).symm
  | error e u => rfl

/-- What comes before the first step only looks, and finds what it finds in `s`. -/
theorem after {x : Op α} {a : α} (hx : ∀ t, SameTests s t → x t = .ok a t) {k : α → Op β} (hk : Opens s (k a)) :
    Opens s (x >>= k) := by
  obtain ⟨j, hj⟩ := hk
  exact ⟨j, fun t ht => (op_bind_ok (hx t ht)).trans (hj t ht)⟩

theorem viewPar {k : Params → Op β} (hk : Opens s (k s.par)) : Opens s (Op.view (·.par) >>= k) :=
  after (fun _ ht => by rw [op_view, ht.par]) hk

theorem require {b : Bool} {c : Code} (hb : b = true) {k : Unit → Op β} (hk : Opens s (k ())) :
    Opens s (Op.require b c >>= k) :=
  after (fun _ _ => by rw [op_require, if_pos hb]) hk

theorem requireReady (hready : s.drv = .ready) {k : Unit → Op β} (hk : Opens s (k ())) :
    Opens s (Machine.requireReady >>= k) :=
  after (fun t ht => by
    unfold Machine.requireReady
    rw [op_bind_ok (op_view _ t), op_require, if_pos (by simp [ht.drv, hready])]) hk

theorem requireRange {l : Loc} (hl : l.inRange = true) {k : Unit → Op β} (hk : Opens s (k ())) :
    Opens s (Machine.requireRange l >>= k) :=
  after (fun t _ => requireRange_ok hl t) hk

/-- A row with admission (41 R110), in READY: the configuration, then the first step. -/
theorem gated (hready : s.drv = .ready) {k : Params → Op β} (hk : Opens s (k s.par)) :
    Opens s (do Machine.requireReady; let p ← Op.view (·.par); k p) :=
  requireReady hready (viewPar hk)

theorem opInit (h : s.drv ≠ .faulted) : Opens s Machine.opInit :=
  after (fun t ht => by rw [op_view, ht.drv]) (require (decide_eq_true h) (viewPar (bind (elem _) _)))

theorem opSend {fcf : Half} {payload : List Byte} {h : HdrShape} (hready : s.drv = .ready) (hf : hdrShape fcf = some h)
    (hlen : lengthOk (hdrLen h) payload.length = true) : Opens s (Machine.opSend fcf payload) := by
  refine gated hready ?_
  rw [hf]
  exact require hlen (bind (elem _) _)

theorem forwardFrame (tag : Tag) : Opens s (Machine.forwardFrame tag) :=
  after (fun t ht => by rw [op_view, ht.dec]) (elem _)

theorem opMalformed (h : s.par.forwardMalformed = true) : Opens s Machine.opMalformed := by
  refine viewPar ?_
  rw [if_pos h]
  exact forwardFrame _

/-- Every row that starts with a step of its own runs an operation that comes to its first boundary at once. -/
theorem exists_exec_eq_runMain {i : Instr} (h : startsWithStep s i = true) :
    ∃ x : Op Value, (∀ t, exec i t = runMain i x t) ∧ Opens s x := by
  cases i with
  | irq => cases h
  | rxpath => cases h
  | txpath => cases h
  | srd a => exact ⟨_, exec_srd a, requireRange ((shortLoc_inRange_eq a).trans h) (bind (elem _) _)⟩
  | swr a v => exact ⟨_, exec_swr a v, requireRange ((shortLoc_inRange_eq a).trans h) (bind (elem _) _)⟩
  | lrd a => exact ⟨_, exec_lrd a, requireRange ((longLoc_inRange_eq a).trans h) (bind (elem _) _)⟩
  | lwr a v => exact ⟨_, exec_lwr a v, requireRange ((longLoc_inRange_eq a).trans h) (bind (elem _) _)⟩
  | reset => exact ⟨_, fun _ => rfl, viewPar (bind (elem _) _)⟩
  | init => exact ⟨_, fun _ => rfl, opInit (of_decide_eq_true h)⟩
  | setChannel n =>
    obtain ⟨hready, hn⟩ := Bool.and_eq_true_iff.1 h
    exact ⟨_, fun _ => rfl, requireReady (of_decide_eq_true hready) (require hn (viewPar (bind (bind (elem _) _) _)))⟩
  | setPan v | setShortAddress v => exact ⟨_, fun _ => rfl, gated (of_decide_eq_true h) (bind (bind (elem _) _) _)⟩
  | getPan | getShortAddress => exact ⟨_, fun _ => rfl, gated (of_decide_eq_true h) (bind (bind (elem _) _) _)⟩
  | setPromiscuous b | setPanController b => exact ⟨_, fun _ => rfl, gated (of_decide_eq_true h) (bind (elem _) _)⟩
  | rxDisable | rxEnable => exact ⟨_, fun _ => rfl, gated (of_decide_eq_true h) (bind (elem _) _)⟩
  | send fcf payload =>
    obtain ⟨hready, hlen⟩ := Bool.and_eq_true_iff.1 h
    cases hf : hdrShape fcf with
    | none => rw [hf] at hlen; cases hlen
    | some x =>
      rw [hf] at hlen
      exact ⟨_, fun _ => rfl, bind (opSend (of_decide_eq_true hready) hf hlen) _⟩
  | send16Ack dest payload =>
    obtain ⟨hready, hlen⟩ := Bool.and_eq_true_iff.1 h
    exact ⟨_, fun _ => rfl, bind (requireReady (of_decide_eq_true hready) (require hlen (viewPar (bind (elem _) _)))) _⟩
  | getRxRecord | getTxRecord => exact ⟨_, fun _ => rfl, bind (elem _) _⟩
  | poll | onReceive | onTxComplete | m07 _ | m01a | m13 _ | m08 _ | m01d _ _ | m02 _ =>
    exact ⟨_, fun _ => rfl, bind (bind (elem _) _) _⟩
  | m0a p1 => exact ⟨_, fun _ => rfl, bind (elem _) _⟩
  | mxx t => exact ⟨_, fun _ => rfl, bind (forwardFrame _) _⟩
  | malformed => exact ⟨_, fun _ => rfl, bind (opMalformed h) _⟩

end Opens

/-- A row in two states that agree on its tests and whose first boundaries end alike. -/
theorem exec_eq_of_boundary {i : Instr} {s t : State} (hi : startsWithStep s i = true) (hs : s.mainCtl = .idle)
    (ht : t.mainCtl = .idle) (htests : SameTests s t)
    (h : ending (boundary (s.setMainCtl (.running i 0))) = ending (boundary (t.setMainCtl (.running i 0)))) :
    exec i s = exec i t := by
  obtain ⟨x, he, k, hk⟩ := Opens.exists_exec_eq_runMain hi
  have hxs : x (s.setMainCtl (.running i 0)) = (do boundary; k) (s.setMainCtl (.running i 0)) := hk _ {}
  have hxt : x (t.setMainCtl (.running i 0)) = (do boundary; k) (t.setMainCtl (.running i 0)) :=
    hk _ ⟨htests.par, htests.drv, htests.dec⟩
  rw [he, he]
  unfold runMain
  rw [hs, ht]
  simp only [hxs, hxt]
  have hbs := drain_frame (s.setMainCtl (.running i 0)).env.agenda (s.setMainCtl (.running i 0))
  rw [← boundary_eq] at hbs
  rw [op_bind, op_bind]
  cases hb : boundary (s.setMainCtl (.running i 0)) with
  | ok a u =>
    rw [(ok_of_ending_eq h a u).1 hb]
  | error e u =>
    rw [hb] at hbs h
    obtain ⟨f, rfl⟩ := hbs
    cases hb' : boundary (t.setMainCtl (.running i 0)) with
    | ok a v => rw [hb'] at h; cases h
    | error e v => rw [hb'] at h; cases h; rfl

/-- Settles O38: the run moves past the start of the row, and the first boundary goes on from the state after it. -/
theorem interruptBeforeFirstStep : Obligations.InterruptBeforeFirstStep := by
  intro i s u as hi hidle hagenda hentry hexec
  have hrun : irqRun s = .ok () u := run_of_execIrq hentry hexec
  have hframe : IrqFrame s u := by
    have h := irqRun_frame hentry
    rwa [hrun] at h
  have hstarted : irqRun (s.setMainCtl (.running i 0)) = .ok () (u.setMainCtl (.running i 0)) := by
    rw [Passes.irqRun (Unseen.setMainCtl (.running i 0)) (fun _ _ => rfl) s, hrun]
    rfl
  have hafter : IrqFrame s (u.setAgenda as) := hframe.trans rfl
  exact exec_eq_of_boundary hi hidle (hafter.mainCtl.trans hidle) hafter.sameTests
    (ending_boundary_run (s := s.setMainCtl (.running i 0)) hentry hagenda hstarted)

/-- Settles O35: no boundary and no idle turn starts a run outside the entry condition. -/
theorem irqNotAdmitted : Obligations.IrqNotAdmitted := by
  refine ⟨entryCond_iff, ?refused, ?boundary, ?firstStep, ?idleTurn⟩
  case refused =>
    intro s h
    exact if_neg (mt (entryCond_iff s).1 h)
  case boundary =>
    intro s as h
    have hentry := mt (entryCond_iff s).1 h
    exact ⟨fun hagenda => ok_of_ending_eq (ending_boundary_refused hentry hagenda) (),
      boundary_exhausted hentry⟩
  case firstStep =>
    intro i s as h hi hidle
    have hentry : ¬ entryCond (s.setMainCtl (.running i 0)) = true := mt (entryCond_iff s).1 h
    refine ⟨fun hagenda => ?_, fun hagenda => ?_⟩
    · exact exec_eq_of_boundary hi hidle hidle {} (ending_boundary_refused hentry hagenda)
    · refine exec_eq_of_boundary hi hidle hidle {} ?_
      exact congrArg ending ((boundary_exhausted hentry hagenda).trans
        (boundary_proceed (s := s.setMainCtl (.running i 0)) hagenda).symm)
  case idleTurn =>
    intro s as h hirq
    have hentry := mt (entryCond_iff s).1 h
    refine ⟨fun hagenda => ?_, fun hagenda hidle hq => ?_⟩
    · simp [step_irqIdle hirq, idleTurn, hagenda, hentry]
    · simp [step_irqIdle hirq, idleTurn, hagenda, hentry, mainTurn, hidle, hq]

/-! ## The event pump (42 R146, R149)

Alone, `poll` runs the RX handler, which may reply, and then reports the completion record. `Settles x` says what the
second half needs of the first: `x` ends, at rest again, with both records and the TX counter as they were. -/

theorem Runs.opOnTxComplete {s : State} (hq : Quiet s) : Runs Machine.opOnTxComplete s ()
    (s.emit (.txReport s.txRec.success s.txRec.retries s.txRec.channelBusy)) :=
  Runs.bind (Runs.elem hq (Runs.view fun _ => rfl)) (Runs.mainEmit _ hq)

/-- Settles O46: one look, one event. -/
theorem onTxCompleteReports : Obligations.OnTxCompleteReports := fun _ ⟨hq, hidle, _⟩ =>
  runMain_runs hidle (Runs.bind (Runs.opOnTxComplete hq) (Runs.pure _ _))

/-! ### A reply, alone (43 R173) -/

/-- A `send` without its destination masks, tests, unmasks and refuses (41 R125). -/
theorem Fails.opSend_noDest {s : State} (hq : Quiet s) (hready : s.drv = .ready) {fcf : Half} {h : HdrShape}
    (hf : hdrShape fcf = some h) {payload : List Byte} (hlen : lengthOk (hdrLen h) payload.length = true)
    (hd : noDest s.rxRec h.dl = true) : Fails (Machine.opSend fcf payload) s .noDest (s.setIrqMask false) := by
  have hmask : Quiet (s.setIrqMask true) := hq
  refine Runs.bindFails (Runs.requireReady hready) (Runs.bindFails (Runs.view fun _ => rfl) ?_)
  rw [hf]
  refine Runs.bindFails (Runs.require hlen) (Runs.bindFails (Runs.elem hq (Runs.update fun _ => rfl))
    (Runs.bindFails (Runs.view fun _ => rfl) ?_))
  rw [if_pos (show noDest (s.setIrqMask true).rxRec h.dl = true from hd)]
  exact Runs.bindFails (Runs.elem hmask (Runs.update fun _ => rfl)) Fails.raise

/-- A reply that `send` refuses is reported. -/
theorem Runs.opReply_refused {s t : State} {fcf : Half} {body : List Byte} {c : Code}
    (h : Fails (Machine.opSend fcf body) s c t) (hc : c ≠ .ok) (hq : Quiet t) :
    Runs (Machine.opReply fcf body) s () (t.emit (.replyRefused c)) := by
  refine Runs.bind h.attempt ?_
  rw [if_neg hc]
  exact Runs.mainEmit _ hq

theorem noDest_reply (r : RxRec) : noDest r 8 = true ↔ r.valid = false ∨ r.srcLen ≠ 8 := by simp [noDest]

/-- A reply, alone: sent, or refused for the driver's status or the destination (43 R173). -/
theorem Runs.opReply {s : State} (hs : AtRest s) (hfits : s.rxRec.valid = true → s.rxRec.Fits s.par) {fcf : Half}
    {body : List Byte} (hf : hdrShape fcf = some ⟨8, 8⟩) (hbody : body.length ≤ 106) :
    Runs (Machine.opReply fcf body) s () (s.replied fcf body) := by
  have ⟨hq, _, _⟩ := hs
  have hlen : lengthOk (hdrLen ⟨8, 8⟩) body.length = true :=
    (lengthOk_iff _ _).2 ⟨by omega, by simp only [hdrLen]; omega⟩
  unfold State.replied
  by_cases hready : s.drv = .ready
  · rw [if_neg (not_not.2 hready)]
    by_cases hd : s.rxRec.valid = false ∨ s.rxRec.srcLen ≠ 8
    · rw [if_pos hd]
      exact Runs.opReply_refused (Fails.opSend_noDest hq hready hf hlen ((noDest_reply _).2 hd)) nofun hq
    · rw [if_neg hd]
      have hdest : HasDest s ⟨8, 8⟩ := fun _ => by simpa using hd
      have hsend := Runs.opSend ⟨hs, hready⟩ hf hlen hdest
      obtain ⟨-, hsl⟩ := (hdrShape_eq_some fcf _).1 hf
      rw [sendWrites_eq fcf body (dest_length hfits hdest) (srcAddr_length hsl)] at hsend
      exact Runs.bind hsend.attempt (Runs.pure () _)
  · rw [if_pos hready]
    exact Runs.opReply_refused (Fails.gated hready _) nofun hq

/-! ### The RX handler settles -/

/-- `t` is at rest, with the configuration, both records and the TX counter of `s`. -/
structure RestsLike (s t : State) : Prop where
  rest : AtRest t
  par : t.par = s.par := by rfl
  rxRec : t.rxRec = s.rxRec := by rfl
  txRec : t.txRec = s.txRec := by rfl
  txEvent : t.txEvent = s.txEvent := by rfl

theorem RestsLike.trans {s t u : State} (h : RestsLike s t) (k : RestsLike t u) : RestsLike s u :=
  ⟨k.rest, k.par.trans h.par, k.rxRec.trans h.rxRec, k.txRec.trans h.txRec, k.txEvent.trans h.txEvent⟩

theorem RestsLike.fits {s t : State} (h : RestsLike s t) (hs : s.rxRec.valid = true → s.rxRec.Fits s.par) :
    t.rxRec.valid = true → t.rxRec.Fits t.par := by rwa [h.rxRec, h.par]

theorem RestsLike.writes {s : State} (hs : AtRest s) (ws : List (Loc × Byte)) : RestsLike s (s.writes .main ws) := by
  obtain ⟨hq, hidle, hp⟩ := hs
  refine ⟨⟨hq.writes .main ws, ?_, (writes_par .main ws s).symm ▸ hp⟩, writes_par .main ws s, ?_, ?_, ?_⟩
  · rw [writes_frame]; exact hidle
  all_goals rw [writes_frame]

theorem RestsLike.transmitted {s : State} (hs : AtRest s) (image : List Byte) (v : Byte) :
    RestsLike s (s.transmitted image v) :=
  have h := RestsLike.writes hs (fifoAt s.par.reg.txfifo 0 image ++ [(s.par.reg.txncon, v)])
  ⟨h.rest, h.par, h.rxRec, h.txRec, h.txEvent⟩

theorem RestsLike.replied {s : State} (hs : AtRest s) (fcf : Half) (body : List Byte) :
    RestsLike s (s.replied fcf body) := by
  unfold State.replied
  split
  · exact { rest := hs }
  · split
    · exact { rest := hs }
    · exact RestsLike.transmitted hs _ _

/-- Alone, with a record whose lengths fit, the operation runs to its end and is at rest again. -/
def Settles {α : Type} (x : Op α) : Prop :=
  ∀ s, AtRest s → (s.rxRec.valid = true → s.rxRec.Fits s.par) → ∃ a t, Runs x s a t ∧ RestsLike s t

namespace Settles

theorem bind {α β : Type} {x : Op α} {k : α → Op β} (hx : Settles x) (hk : ∀ a, Settles (k a)) : Settles (x >>= k) := by
  intro s hs hfits
  obtain ⟨a, t, hrun, ht⟩ := hx s hs hfits
  obtain ⟨b, u, hrun', hu⟩ := hk a t ht.rest (ht.fits hfits)
  exact ⟨b, u, Runs.bind hrun hrun', ht.trans hu⟩

theorem pure {α : Type} (a : α) : Settles (pure a : Op α) :=
  fun s hs _ => ⟨a, s, Runs.pure a s, { rest := hs }⟩

theorem view {α : Type} {g : State → α} (h : ∀ s c, g (s.setMainCtl c) = g s) : Settles (Op.view g) :=
  fun s hs _ => ⟨g s, s, Runs.view (h s), { rest := hs }⟩

theorem ite {α : Type} (b : Prop) [Decidable b] {x y : Op α} (hx : Settles x) (hy : Settles y) :
    Settles (if b then x else y) := by split <;> assumption

theorem elem {α : Type} {x : Op α} (hx : Settles x) : Settles (elem x) := by
  intro s hs hfits
  obtain ⟨a, t, hrun, ht⟩ := hx s hs hfits
  exact ⟨a, t, Runs.elem hs.1 hrun, ht⟩

/-- An update of a field that is neither the environment, the configuration, a record nor the TX counter. -/
theorem update {f : State → State} (h : ∀ s c, f (s.setMainCtl c) = (f s).setMainCtl c)
    (hf : ∀ s, AtRest s → RestsLike s (f s)) : Settles (Op.update f) :=
  fun s hs _ => ⟨(), f s, Runs.update (h s), hf s hs⟩

theorem mainUpdate {f : State → State} (h : ∀ s c, f (s.setMainCtl c) = (f s).setMainCtl c)
    (hf : ∀ s, AtRest s → RestsLike s (f s)) : Settles (mainUpdate f) := elem (update h hf)

theorem mainEmit (e : OutEvent) : Settles (mainEmit e) := mainUpdate (fun _ _ => rfl) fun _ hs => { rest := hs }

theorem mutateDev (f : DeviceRecord → DeviceRecord) : Settles (mutateDev f) :=
  mainUpdate (fun _ _ => rfl) fun _ hs => { rest := hs }

theorem nextLs : Settles nextLs :=
  elem (bind (view fun _ _ => rfl) fun _ =>
    bind (update (fun _ _ => rfl) fun _ hs => { rest := hs }) fun _ => pure _)

theorem forwardFrame (tag : Tag) : Settles (forwardFrame tag) := bind (view fun _ _ => rfl) fun _ => mainEmit _

theorem opReply {fcf : Half} {body : List Byte} (hf : hdrShape fcf = some ⟨8, 8⟩) (hbody : body.length ≤ 106) :
    Settles (opReply fcf body) :=
  fun s hs hfits => ⟨(), s.replied fcf body, Runs.opReply hs hfits hf hbody, RestsLike.replied hs fcf body⟩

theorem opM07 (p1 : Byte) : Settles (opM07 p1) :=
  bind (mutateDev _) fun _ => bind (view fun _ _ => rfl) fun p =>
    opReply (StoresAlone.hdrShape_replyM07 p) (show 7 ≤ 106 by decide)

theorem opM01A : Settles opM01A :=
  bind (mutateDev _) fun _ => opReply StoresAlone.hdrShape_replyAck (show 4 ≤ 106 by decide)

theorem opM13 (p1 : Byte) : Settles (opM13 p1) :=
  bind (mutateDev _) fun _ => bind nextLs fun _ => opReply StoresAlone.hdrShape_replyAck (show 4 ≤ 106 by decide)

theorem opM08 (p2 : Byte) : Settles (opM08 p2) :=
  bind (mutateDev _) fun _ => bind nextLs fun _ => bind (view fun _ _ => rfl) fun _ =>
    opReply StoresAlone.hdrShape_replyNoack (show 3 ≤ 106 by decide)

theorem opM01D (p1 p2 : Byte) : Settles (opM01D p1 p2) :=
  bind (mutateDev _) fun _ => bind nextLs fun _ =>
    bind (opReply StoresAlone.hdrShape_replyNoack (show 4 ≤ 106 by decide)) fun _ => forwardFrame _

theorem opM02 (p2 : Byte) : Settles (opM02 p2) :=
  bind (mutateDev _) fun _ => bind nextLs fun _ => bind (view fun _ _ => rfl) fun _ =>
    bind (opReply StoresAlone.hdrShape_replyNoack (show 4 ≤ 106 by decide)) fun _ => forwardFrame _

theorem opMalformed : Settles opMalformed := bind (view fun _ _ => rfl) fun _ => ite _ (forwardFrame _) (pure _)

theorem runAction (i : Instr) : Settles (runAction i) := by
  cases i with
  | m07 p1 => exact opM07 p1
  | m01a => exact opM01A
  | m13 p1 => exact opM13 p1
  | m08 p2 => exact opM08 p2
  | m01d p1 p2 => exact opM01D p1 p2
  | m02 p2 => exact opM02 p2
  | m0a p1 => exact mutateDev _
  | mxx t => exact forwardFrame _
  | malformed => exact opMalformed
  | _ => exact pure _

theorem opOnReceive : Settles opOnReceive :=
  bind (mainUpdate (fun _ _ => rfl) fun _ hs => { rest := hs }) fun _ => bind (view fun _ _ => rfl) fun _ => runAction _

end Settles

/-! ### `poll` -/

theorem Runs.testClearRx {s : State} (hq : Quiet s) :
    Runs Machine.testClearRx s (eventPending s.rxEvent) (s.setRxEvent 0) :=
  Runs.elem hq (Runs.bind (Runs.view fun _ => rfl) (Runs.bind (Runs.update fun _ => rfl) (Runs.pure _ _)))

theorem Runs.testClearTx {s : State} (hq : Quiet s) :
    Runs Machine.testClearTx s (eventPending s.txEvent) (s.setTxEvent 0) :=
  Runs.elem hq (Runs.bind (Runs.view fun _ => rfl) (Runs.bind (Runs.update fun _ => rfl) (Runs.pure _ _)))

theorem setRxEvent_of_eq {s : State} {c : Byte} (h : s.rxEvent = c) : s.setRxEvent c = s := by subst h; rfl
theorem setTxEvent_of_eq {s : State} {c : Byte} (h : s.txEvent = c) : s.setTxEvent c = s := by subst h; rfl

theorem eventPending_iff (c : Byte) : eventPending c = true ↔ c ≠ 0 := decide_eq_true_iff

theorem eventPending_of_zero {c : Byte} (h : c = 0) : ¬ eventPending c = true := fun hc => (eventPending_iff c).1 hc h

/-- The second half of `poll`: the TX counter cleared and the record reported, if the counter is not zero (42 R146). -/
def State.txServed (s : State) : State :=
  if s.txEvent = 0 then s
  else (s.setTxEvent 0).emit (.txReport s.txRec.success s.txRec.retries s.txRec.channelBusy)

theorem Runs.serveTx {s : State} (hq : Quiet s) :
    Runs (do let t ← Machine.testClearTx; (if t then Machine.opOnTxComplete else Pure.pure ())) s () s.txServed := by
  refine Runs.bind (Runs.testClearTx hq) ?_
  unfold State.txServed
  by_cases h0 : s.txEvent = 0
  · rw [if_pos h0, if_neg (eventPending_of_zero h0), setTxEvent_of_eq h0]
    exact Runs.pure () s
  · have hquiet : Quiet (s.setTxEvent 0) := hq
    rw [if_neg h0, if_pos ((eventPending_iff _).2 h0)]
    exact Runs.opOnTxComplete hquiet

/-- What the first half of `poll` does, then the second. -/
theorem Runs.opPoll {s t : State} (hq : Quiet s) (ht : Quiet t)
    (h : Runs (if eventPending s.rxEvent then Machine.opOnReceive else Pure.pure ()) (s.setRxEvent 0) () t) :
    Runs (do Machine.opPoll; Pure.pure Value.none) s .none t.txServed :=
  Runs.bind (Runs.bind (Runs.testClearRx hq) (Runs.bind h (Runs.serveTx ht))) (Runs.pure _ _)

/-- Settles O47: the RX handler settles (`Settles.opOnReceive`), so the TX half finds record and counter as they were. -/
theorem pollServes : Obligations.PollServes := by
  intro s hs hfits
  have ⟨hq, hidle, _⟩ := hs
  by_cases h0 : s.rxEvent = 0
  · refine ⟨s, by rw [if_pos h0], runMain_runs hidle (Runs.opPoll hq hq ?_)⟩
    rw [if_neg (eventPending_of_zero h0), setRxEvent_of_eq h0]
    exact Runs.pure () s
  · have hcleared : AtRest (s.setRxEvent 0) := hs
    obtain ⟨u, t, hrun, ht⟩ := Settles.opOnReceive (s.setRxEvent 0) hcleared hfits
    have hexec : exec .onReceive (s.setRxEvent 0) = .next (t.finish .ok .none) :=
      runMain_runs hidle (Runs.bind hrun (Runs.pure _ _))
    have hpoll : exec .poll s = .next (t.txServed.finish .ok .none) := by
      refine runMain_runs hidle (Runs.opPoll hq ht.rest.1 ?_)
      rw [if_pos ((eventPending_iff _).2 h0)]
      exact hrun
    have hserved : t.txServed.finish .ok .none = (t.finish .ok .none).txServed.finish .ok .none := by
      have hevent : (t.finish .ok .none).txEvent = t.txEvent := rfl
      unfold State.txServed
      rw [hevent]
      split <;> rfl
    refine ⟨t.finish .ok .none, by rw [if_neg h0]; exact hexec, ?_⟩
    rw [hpoll, hserved]
    have htx : t.txEvent = s.txEvent := ht.txEvent
    have hrec : t.txRec = s.txRec := ht.txRec
    rw [← htx, ← hrec]
    rfl

end Sys2Proof.Machine

/-! # The protocol decoder (43 R160 to R178)

First the dispatch and the lookup as functions: which action a payload selects, and which record a source has. Then
every action alone, as a chain of its elementary steps, and `ON_RECEIVE` as the snapshot followed by the action that it
selects. Last, whatever interrupts, what a decode can change in the DeviceTable. -/

namespace Sys2Proof.Machine

/-! ## The dispatch (43 R162) -/

/-- A message whose row reads one byte after the type byte. -/
theorem decodeMsg_oneByte {on0 : Bool} {t : Byte} {row : Byte → Instr} (hnil : decodeMsg on0 [t] = .malformed)
    (hcons : ∀ p1 tail, decodeMsg on0 (t :: p1 :: tail) = row p1) (rest : List Byte) :
    decodeMsg on0 (t :: rest) = if 1 ≤ rest.length then row (byteAt rest 0) else .malformed := by
  cases rest with
  | nil => exact hnil
  | cons p1 tail => simp [hcons, byteAt]

/-- A message whose row needs two bytes after the type byte. -/
theorem decodeMsg_twoBytes {on0 : Bool} {t : Byte} {row : Byte → Byte → Instr} (hnil : decodeMsg on0 [t] = .malformed)
    (hone : ∀ p1, decodeMsg on0 [t, p1] = .malformed)
    (hcons : ∀ p1 p2 tail, decodeMsg on0 (t :: p1 :: p2 :: tail) = row p1 p2) (rest : List Byte) :
    decodeMsg on0 (t :: rest) = if 2 ≤ rest.length then row (byteAt rest 0) (byteAt rest 1) else .malformed := by
  match rest with
  | [] => exact hnil
  | [p1] => exact hone p1
  | p1 :: p2 :: tail => simp [hcons, byteAt]

/-- Settles O4: a known type byte has a row that reads one or two bytes, any other is `decodeMsg_unknown`. -/
theorem messageDispatch : Obligations.MessageDispatch := by
  intro on0 t rest
  refine ⟨rfl, ?m07, ?m01a, ?m01d, ?m13, ?m08, ?m02, ?m0a, fun ht => decodeMsg_unknown on0 ht rest⟩
  case m07 => rintro rfl; exact decodeMsg_oneByte rfl (fun _ _ => rfl) rest
  case m01a => rintro rfl rfl; rfl
  case m01d => rintro rfl rfl; exact decodeMsg_twoBytes rfl (fun _ => rfl) (fun _ _ _ => rfl) rest
  case m13 => rintro rfl; exact decodeMsg_oneByte rfl (fun _ _ => rfl) rest
  case m08 => rintro rfl; exact decodeMsg_twoBytes (row := fun _ => .m08) rfl (fun _ => rfl) (fun _ _ _ => rfl) rest
  case m02 => rintro rfl; exact decodeMsg_twoBytes (row := fun _ => .m02) rfl (fun _ => rfl) (fun _ _ _ => rfl) rest
  case m0a => rintro rfl; exact decodeMsg_oneByte rfl (fun _ _ => rfl) rest

/-! ## The lookup (43 R161) -/

theorem findSlot_eq_some {dev : List DeviceRecord} {src : List Byte} {i : Nat} (h : findSlot dev src = some i) :
    ∃ d, dev[i]? = some d ∧ d.identity.toList = src := by
  induction dev generalizing i with
  | nil => cases h
  | cons e dev ih =>
    unfold findSlot at h
    split at h
    · next he => cases h; exact ⟨e, rfl, he⟩
    · obtain ⟨j, hj, rfl⟩ := Option.map_eq_some_iff.1 h
      exact ih hj

theorem findSlot_eq_none {dev : List DeviceRecord} {src : List Byte} (h : findSlot dev src = none) :
    ∀ d ∈ dev, d.identity.toList ≠ src := by
  induction dev with
  | nil => exact List.forall_mem_nil _
  | cons e dev ih =>
    unfold findSlot at h
    split at h
    · cases h
    · next he => exact List.forall_mem_cons.2 ⟨he, ih (Option.map_eq_none_iff.1 h)⟩

/-- What the lookup can give: no slot, where no record has the extended source, or the index of a record that has it. -/
theorem decCtx_cases (p : Params) (dev : List DeviceRecord) (r : RxRec) :
    (decCtx p dev r = ⟨r, none, false, p.unknownSeq⟩ ∧ (r.srcLen = 8 → ∀ d ∈ dev, d.identity.toList ≠ r.src)) ∨
    ∃ i d, dev[i]? = some d ∧ d.identity.toList = r.src ∧ decCtx p dev r = ⟨r, some i, d.online, d.sequence⟩ := by
  unfold decCtx
  by_cases hext : r.srcLen = 8
  · rw [if_pos hext]
    cases hf : findSlot dev r.src with
    | none => exact .inl ⟨rfl, fun _ => findSlot_eq_none hf⟩
    | some i =>
      obtain ⟨d, hd, hid⟩ := findSlot_eq_some hf
      exact .inr ⟨i, d, hd, hid, by simp only [hd]⟩
  · rw [if_neg hext]
    exact .inl ⟨rfl, fun h => absurd h hext⟩

@[simp] theorem decCtx_r (p : Params) (dev : List DeviceRecord) (r : RxRec) : (decCtx p dev r).r = r := by
  obtain ⟨h, -⟩ | ⟨i, d, -, -, h⟩ := decCtx_cases p dev r <;> rw [h]

/-- Distinct identities name their index. -/
theorem index_unique {dev : List DeviceRecord} (hdev : (dev.map (·.identity)).Nodup) {i j : Nat} {d e : DeviceRecord}
    (hd : dev[i]? = some d) (he : dev[j]? = some e) (h : d.identity.toList = e.identity.toList) : i = j := by
  have hlt : i < (dev.map (·.identity)).length := by
    rw [List.length_map]
    exact (List.getElem?_eq_some_iff.1 hd).1
  refine (List.getElem?_inj hlt hdev).1 ?_
  rw [List.getElem?_map, List.getElem?_map, hd, he]
  exact congrArg some (Vector.toList_inj.1 h)

/-- Settles O45: by the two outcomes of the lookup; with distinct identities no second record has the source. -/
theorem lookupFindsTheRecord : Obligations.LookupFindsTheRecord := by
  refine ⟨fun p dev r => ⟨decCtx_r p dev r, fun hext => ?_⟩, fun p dev r hext hdev => ?_⟩
  · rw [show decCtx p dev r = ⟨r, none, false, p.unknownSeq⟩ from if_neg hext]
    exact ⟨rfl, rfl, rfl⟩
  · obtain ⟨h, hnone⟩ | ⟨i, d, hd, hid, h⟩ := decCtx_cases p dev r <;> rw [h]
    · refine ⟨fun j e he => ⟨fun hsrc => ?_, nofun⟩, nofun, fun _ => ⟨rfl, rfl⟩⟩
      exact absurd hsrc (hnone hext e (List.mem_of_getElem? he))
    · refine ⟨fun j e he => ⟨fun hsrc => ?_, ?_⟩, ?_, nofun⟩
      · exact congrArg some (index_unique hdev hd he (hid.trans hsrc.symm))
      · rintro ⟨⟩
        obtain rfl : d = e := Option.some.inj (hd.symm.trans he)
        exact hid
      · rintro j e he ⟨⟩
        obtain rfl : d = e := Option.some.inj (hd.symm.trans he)
        exact ⟨rfl, rfl⟩

/-! ## The actions' steps, alone -/

theorem Runs.mutateDev {s : State} (hq : Quiet s) (f : DeviceRecord → DeviceRecord) :
    Runs (Machine.mutateDev f) s () (s.withDevice f) := Runs.mainUpdate hq fun _ => rfl

theorem Runs.nextLs {s : State} (hq : Quiet s) :
    Runs Machine.nextLs s s.localSeq (s.setLocalSeq (s.localSeq + 1)) :=
  Runs.elem hq (Runs.bind (Runs.view fun _ => rfl) (Runs.bind (Runs.update fun _ => rfl) (Runs.pure _ _)))

theorem Runs.forwardFrame {s : State} (hq : Quiet s) (tag : Tag) :
    Runs (Machine.forwardFrame tag) s () (s.forwarded tag) :=
  Runs.bind (Runs.view fun _ => rfl) (Runs.mainEmit _ hq)

/-- A row of the decoder whose action runs to its end. -/
theorem runMain_action {i : Instr} {x : Op Unit} {s t : State} (hidle : s.mainCtl = .idle) (h : Runs x s () t) :
    runMain i (do x; Pure.pure Value.none) s = .next (t.finish .ok .none) :=
  runMain_runs hidle (Runs.bind h (Runs.pure _ _))

/-- A reply leaves the DeviceTable alone. -/
theorem replied_dev (s : State) (fcf : Half) (body : List Byte) : (s.replied fcf body).dev = s.dev := by
  unfold State.replied
  split_ifs
  · rfl
  · rfl
  · show (s.writes .main _).dev = s.dev
    rw [writes_frame]

/-- `local_seq` is used and advanced after the change of the record (43 R166 to R169, R174). -/
theorem Runs.mutateThenCount {α : Type} {s t : State} {a : α} (hq : Quiet s) (f : DeviceRecord → DeviceRecord)
    {k : Byte → Op α} (hk : Runs (k s.localSeq) ((s.withDevice f).setLocalSeq (s.localSeq + 1)) a t) :
    Runs (do Machine.mutateDev f; let ls ← Machine.nextLs; k ls) s a t := by
  have hmut : Quiet (s.withDevice f) := hq
  exact Runs.bind (Runs.mutateDev hq f) (Runs.bind (Runs.nextLs hmut) hk)

/-- The forward comes after the reply, whether that was sent or refused (43 R162, R173). -/
theorem Runs.replyThenForward {s : State} (hs : AtRest s) (hfits : s.rxRec.valid = true → s.rxRec.Fits s.par)
    {fcf : Half} {body : List Byte} (hf : hdrShape fcf = some ⟨8, 8⟩) (hbody : body.length ≤ 106) (tag : Tag) :
    Runs (do Machine.opReply fcf body; Machine.forwardFrame tag) s () ((s.replied fcf body).forwarded tag) :=
  Runs.bind (Runs.opReply hs hfits hf hbody) (Runs.forwardFrame (RestsLike.replied hs fcf body).rest.1 tag)

/-! ## The actions (43 R163 to R171) -/

theorem exec_m07 {s : State} (hs : AtRest s) (hfits : s.rxRec.valid = true → s.rxRec.Fits s.par) (p1 : Byte) :
    exec (.m07 p1) s = .next (State.finish ((s.withDevice fun d => { d with online := false }).replied
      (fcfReplyM07 s.par) (bodyM07 p1)) .ok .none) := by
  have ⟨hq, hidle, _⟩ := hs
  have hmut : AtRest (s.withDevice fun d => { d with online := false }) := hs
  exact runMain_action hidle (Runs.bind (Runs.mutateDev hq _) (Runs.bind (Runs.view fun _ => rfl)
    (Runs.opReply hmut hfits (StoresAlone.hdrShape_replyM07 s.par) (show 7 ≤ 106 by decide))))

theorem exec_m01a {s : State} (hs : AtRest s) (hfits : s.rxRec.valid = true → s.rxRec.Fits s.par) :
    exec .m01a s = .next (State.finish ((s.withDevice fun d => { d with online := false }).replied
      fcfReplyAck bodyM01A) .ok .none) := by
  have ⟨hq, hidle, _⟩ := hs
  have hmut : AtRest (s.withDevice fun d => { d with online := false }) := hs
  exact runMain_action hidle (Runs.bind (Runs.mutateDev hq _)
    (Runs.opReply hmut hfits StoresAlone.hdrShape_replyAck (show 4 ≤ 106 by decide)))

/-- Settles O39: the reply's FrameControl and bytes are those of 30 R83 and R84. -/
theorem offlineActions : Obligations.OfflineActions :=
  fun _ p1 hs hfits => ⟨exec_m07 hs hfits p1, exec_m01a hs hfits⟩

theorem exec_m13 {s : State} (hs : AtRest s) (hfits : s.rxRec.valid = true → s.rxRec.Fits s.par) (p1 : Byte) :
    exec (.m13 p1) s = .next (State.finish
      (((s.withDevice fun d => { d with online := true, sequence := p1 }).setLocalSeq (s.localSeq + 1)).replied
        fcfReplyAck (bodyM13 s.localSeq p1)) .ok .none) := by
  have ⟨hq, hidle, _⟩ := hs
  have hcount (f : DeviceRecord → DeviceRecord) : AtRest ((s.withDevice f).setLocalSeq (s.localSeq + 1)) := hs
  exact runMain_action hidle (Runs.mutateThenCount hq _
    (Runs.opReply (hcount _) hfits StoresAlone.hdrShape_replyAck (show 4 ≤ 106 by decide)))

/-- The record of the slot is changed and no other (43 R172). -/
theorem withDevice_getElem? {s : State} {k : Nat} (hk : s.dec.slot = some k) (f : DeviceRecord → DeviceRecord)
    (j : Nat) : (s.withDevice f).dev[j]? = if j = k then s.dev[j]?.map f else s.dev[j]? := by
  show (updateSlot s.dev s.dec.slot f)[j]? = _
  rw [hk, updateSlot, List.getElem?_modify]
  by_cases hj : j = k
  · subst hj; simp
  · simp [hj, Ne.symm hj]

/-- Without a slot nothing is changed (43 R172). -/
theorem withDevice_of_none {s : State} (h : s.dec.slot = none) (f : DeviceRecord → DeviceRecord) :
    s.withDevice f = s := by
  unfold State.withDevice
  rw [h]
  rfl

/-- Settles O40: the reply leaves the table as the change of the record made it. -/
theorem beaconAction : Obligations.BeaconAction := by
  refine ⟨fun s p1 hs hfits => exec_m13 hs hfits p1, fun s t p1 hs hfits h => ?table,
    fun s f => ⟨fun k hk j => withDevice_getElem? hk f j, fun hnone => withDevice_of_none hnone f⟩⟩
  case table =>
    have hdev : t.dev = (s.withDevice fun d => { d with online := true, sequence := p1 }).dev := by
      rw [exec_m13 hs hfits p1] at h
      cases h
      exact replied_dev _ _ _
    rw [hdev]
    exact ⟨fun k hk j => withDevice_getElem? hk _ j, fun hnone => congrArg State.dev (withDevice_of_none hnone _)⟩

/-- Settles O41: the record and `local_seq`, then the reply with the stored sequence of the snapshot. -/
theorem shortReplyAction : Obligations.ShortReplyAction := by
  intro s p2 hs hfits
  have ⟨hq, hidle, _⟩ := hs
  have hcount : AtRest ((s.withDevice fun d => { d with online := true }).setLocalSeq (s.localSeq + 1)) := hs
  exact runMain_action hidle (Runs.mutateThenCount hq _ (Runs.bind (Runs.view fun _ => rfl)
    (Runs.opReply hcount hfits StoresAlone.hdrShape_replyNoack (show 3 ≤ 106 by decide))))

/-- Settles O42: as for the short reply, and then the forward. -/
theorem dataActions : Obligations.DataActions := by
  intro s p1 p2 hs hfits
  have ⟨hq, hidle, _⟩ := hs
  have hcount (f : DeviceRecord → DeviceRecord) : AtRest ((s.withDevice f).setLocalSeq (s.localSeq + 1)) := hs
  refine ⟨runMain_action hidle (Runs.mutateThenCount hq _ ?m01d), runMain_action hidle (Runs.mutateThenCount hq _ ?m02)⟩
  case m01d => exact Runs.replyThenForward (hcount _) hfits StoresAlone.hdrShape_replyNoack (by simp [bodyM01D]) _
  case m02 =>
    exact Runs.bind (Runs.view fun _ => rfl)
      (Runs.replyThenForward (hcount _) hfits StoresAlone.hdrShape_replyNoack (by simp [bodyM02]) _)

theorem Runs.opMalformed {s : State} (hq : Quiet s) :
    Runs Machine.opMalformed s () (if s.par.forwardMalformed then s.forwarded .unknown else s) := by
  refine Runs.bind (Runs.view fun _ => rfl) ?_
  split
  · exact Runs.forwardFrame hq .unknown
  · exact Runs.pure () s

/-- Settles O43: none of the three comes to a reply. -/
theorem silentActions : Obligations.SilentActions := fun _ _ _ ⟨hq, hidle, _⟩ =>
  ⟨runMain_action hidle (Runs.mutateDev hq _), runMain_action hidle (Runs.forwardFrame hq .unknown),
    runMain_action hidle (Runs.opMalformed hq)⟩

/-! ## `ON_RECEIVE` alone (43 R161, R180) -/

/-- The decoder's actions (43 R162). -/
def isAction : Instr → Bool
  | .m07 _ => true
  | .m01a => true
  | .m13 _ => true
  | .m08 _ => true
  | .m01d _ _ => true
  | .m02 _ => true
  | .m0a _ => true
  | .mxx _ => true
  | .malformed => true
  | _ => false

/-- The row of an action is that action (`runAction`), from IDLE to its end. -/
theorem exec_action {i : Instr} (hi : isAction i = true) (s : State) :
    exec i s = runMain i (do runAction i; pure .none) s := by
  cases i with
  | m07 | m01a | m13 | m08 | m01d | m02 | m0a | mxx | malformed => rfl
  | _ => cases hi

theorem decodeMsg_isAction (on0 : Bool) (payload : List Byte) : isAction (decodeMsg on0 payload) = true := by
  fun_cases decodeMsg <;> rfl

/-- The dispatch answers actions only. -/
theorem actionOf_isAction (d : DecCtx) : isAction (actionOf d) = true := by
  unfold actionOf
  split
  · exact decodeMsg_isAction _ _
  · rfl

/-- Neither `poll` nor `ON_RECEIVE` is an action: no action takes a snapshot. -/
theorem dec_of_action {i : Instr} (hi : isAction i = true) {s t : State} (h : exec i s = .next t) : t.dec = s.dec := by
  refine (exec_within h).dec ?_
  cases i with
  | poll | onReceive => cases hi
  | _ => rfl

/-- Alone, `ON_RECEIVE` ends as the action that its snapshot selects does from those locals. -/
theorem exec_onReceive {s : State} (hs : AtRest s) (hfits : s.rxRec.valid = true → s.rxRec.Fits s.par) :
    ∃ t : State, exec .onReceive s = .next (t.finish .ok .none) ∧
      exec (actionOf (decCtx s.par s.dev s.rxRec)) (s.setDec (decCtx s.par s.dev s.rxRec)) =
        .next (t.finish .ok .none) := by
  have ⟨hq, hidle, _⟩ := hs
  have hsnap : AtRest (s.setDec (decCtx s.par s.dev s.rxRec)) := hs
  obtain ⟨u, t, hrun, -⟩ := Settles.runAction (actionOf (decCtx s.par s.dev s.rxRec)) _ hsnap hfits
  refine ⟨t, runMain_action hidle ?_, ?_⟩
  · exact Runs.bind (Runs.mainUpdate hq fun _ => rfl) (Runs.bind (Runs.view fun _ => rfl) hrun)
  · rw [exec_action (actionOf_isAction _)]
    exact runMain_action hidle hrun

/-- Settles O44: the snapshot is the record, and `actionOf` looks at its source length and then at its payload. -/
theorem onReceiveDispatches : Obligations.OnReceiveDispatches := by
  intro s hs hfits
  obtain ⟨t, hreceive, haction⟩ := exec_onReceive hs hfits
  refine ⟨decCtx_r _ _ _, _, hreceive, rfl, dec_of_action (actionOf_isAction _) haction, fun hext => ?_, fun hext => ?_⟩
  · rwa [actionOf, decCtx_r, if_neg hext] at haction
  · rwa [actionOf, decCtx_r, if_pos hext] at haction

/-! ## Whatever interrupts, only the source's record changes (43 R177) -/

/-- The decoder works on the locals `d`, and of the table `dev` at most the record of their slot is changed. -/
structure OnlySlot (dev : List DeviceRecord) (d : DecCtx) (s : State) : Prop where
  dec : s.dec = d
  others : ∀ k, d.slot ≠ some k → s.dev[k]? = dev[k]?

namespace OnlySlot

variable {dev : List DeviceRecord} {d : DecCtx}

/-- What may change neither the locals nor the table. -/
theorem of_touches {α : Type} {w : Allowance} {x : Op α} (hx : Touches w x) (hdec : w.dec = false := by rfl)
    (hdev : w.dev = false := by rfl) : Stays (OnlySlot dev d) x :=
  hx.stays fun _ _ hw h => ⟨(hw.dec hdec).trans h.dec, fun k hk => by rw [hw.dev hdev, h.others k hk]⟩

/-- The one change of the table is that of the slot. -/
theorem mutateDev (f : DeviceRecord → DeviceRecord) : Stays (OnlySlot dev d) (mutateDev f) := by
  refine Stays.bind (of_touches Touches.boundary) fun _ =>
    Stays.bind (Stays.update fun _ h => ⟨h.dec, h.others⟩) fun _ => Stays.update fun s h => ⟨h.dec, fun k hk => ?_⟩
  rw [← h.others k hk]
  show (s.withDevice f).dev[k]? = s.dev[k]?
  cases hslot : s.dec.slot with
  | none => rw [withDevice_of_none hslot]
  | some j =>
    rw [withDevice_getElem? hslot, if_neg]
    rintro rfl
    exact hk (h.dec ▸ hslot)

/-- Every action is a change of the slot at most, and then what leaves locals and table alone. -/
theorem runAction (i : Instr) : Stays (OnlySlot dev d) (runAction i) := by
  have hcount : Stays (OnlySlot dev d) nextLs := of_touches Touches.nextLs
  have hreply (fcf : Half) (body : List Byte) : Stays (OnlySlot dev d) (opReply fcf body) :=
    of_touches (Touches.opReply fcf body)
  have hforward (tag : Tag) : Stays (OnlySlot dev d) (forwardFrame tag) := of_touches (Touches.forwardFrame tag)
  cases i with
  | m07 p1 => exact Stays.bind (mutateDev _) fun _ => Stays.bind (Stays.view _) fun _ => hreply _ _
  | m01a => exact Stays.bind (mutateDev _) fun _ => hreply _ _
  | m13 p1 => exact Stays.bind (mutateDev _) fun _ => Stays.bind hcount fun _ => hreply _ _
  | m08 p2 =>
    exact Stays.bind (mutateDev _) fun _ => Stays.bind hcount fun _ => Stays.bind (Stays.view _) fun _ => hreply _ _
  | m01d p1 p2 =>
    exact Stays.bind (mutateDev _) fun _ => Stays.bind hcount fun _ => Stays.bind (hreply _ _) fun _ => hforward _
  | m02 p2 =>
    exact Stays.bind (mutateDev _) fun _ => Stays.bind hcount fun _ => Stays.bind (Stays.view _) fun _ =>
      Stays.bind (hreply _ _) fun _ => hforward _
  | m0a p1 => exact mutateDev _
  | mxx t => exact hforward _
  | malformed => exact of_touches Touches.opMalformed
  | _ => exact Stays.pure _

end OnlySlot

/-- The slot that a decode works on is the source's: it leaves every other record of the table `dev` alone. -/
def OnlySource (dev : List DeviceRecord) (s : State) : Prop :=
  ∀ (k : Nat) (e : DeviceRecord), dev[k]? = some e → s.dev[k]? ≠ some e → e.identity.toList = s.dec.r.src

theorem OnlySlot.onlySource {dev : List DeviceRecord} {p : Params} {r : RxRec} {s : State}
    (h : OnlySlot dev (decCtx p dev r) s) : OnlySource dev s := by
  intro k e he hne
  have hslot : (decCtx p dev r).slot = some k := by
    by_contra hk
    exact hne ((h.others k hk).trans he)
  rw [h.dec]
  obtain ⟨hd, -⟩ | ⟨i, d, hd, hid, hctx⟩ := decCtx_cases p dev r
  · rw [hd] at hslot
    cases hslot
  · rw [hctx] at hslot ⊢
    cases hslot
    obtain rfl : d = e := Option.some.inj (hd.symm.trans he)
    exact hid

/-- An action that works on the locals of a snapshot. -/
theorem runAction_onlySource (dev : List DeviceRecord) (p : Params) (r : RxRec) (i : Instr) :
    Triple (OnlySlot dev (decCtx p dev r)) (runAction i) (fun _ => OnlySource dev) (OnCode (OnlySource dev)) :=
  (OnlySlot.runAction i).weaken (fun _ => id) (fun _ _ => OnlySlot.onlySource)
    fun _ _ h c hc => OnlySlot.onlySource (h c hc)

theorem OnlySource.of_eq {dev : List DeviceRecord} {s : State} (h : s.dev = dev) : OnlySource dev s :=
  fun _ _ he hne => absurd (h ▸ he) hne

/-- The snapshot, whatever frame the record holds by then: from here on the slot is the source's. -/
theorem snapshot_onlySlot (dev : List DeviceRecord) :
    Triple (fun s => s.dev = dev) (mainUpdate fun s => s.setDec (decCtx s.par s.dev s.rxRec))
      (fun _ s => ∃ p r, OnlySlot dev (decCtx p dev r) s) (OnCode (OnlySource dev)) := by
  have hboundary : Stays (fun s => s.dev = dev) boundary :=
    Touches.boundary.stays fun _ _ hw h => (hw.dev rfl).trans h
  refine Triple.bind (hboundary.onCode fun _ => OnlySource.of_eq) fun _ => ?_
  rintro s rfl
  exact ⟨s.par, s.rxRec, rfl, fun _ _ => rfl⟩

theorem opOnReceive_onlySource (dev : List DeviceRecord) :
    Triple (fun s => s.dev = dev) opOnReceive (fun _ => OnlySource dev) (OnCode (OnlySource dev)) := by
  refine Triple.bind (snapshot_onlySlot dev) fun _ => ?_
  rintro s ⟨p, r, h⟩
  exact runAction_onlySource dev p r (actionOf s.dec) s h

/-- Settles O51: no row changes an identity (`exec_within`), and a decode no record but that of its slot. -/
theorem onlyTheSourceChanges : Obligations.OnlyTheSourceChanges := by
  intro s t h
  have hrow : Triple (fun u => u = s.setMainCtl (.running .onReceive 0)) (do opOnReceive; pure Value.none)
      (fun _ => OnlySource s.dev) (OnCode (OnlySource s.dev)) :=
    Triple.bind ((opOnReceive_onlySource s.dev).pre fun _ hu => hu ▸ rfl) fun _ _ hu => hu
  obtain ⟨-, u, c, v, hu, rfl⟩ := runMain_next hrow h
  exact ⟨(exec_within h).identities, hu⟩

end Sys2Proof.Machine

/-! # The bytes of a frame are never torn (20 R58, R59, 41 R125, R127, 43 R173)

Under the mask nothing but the environment moves between two steps (`drain_masked`), so the masked part of a send leaves
its own writes on the trace and nothing else: `UnderMask` says which. Everywhere else an interrupt run can stand between
two steps, and `ByIrq` says that only its transactions do. A row of the decoder or the pump is a reply between such
steps: `Answers` keeps, beside the trace, the refusal that a reply that was not sent puts out. -/

namespace Sys2Proof.Machine

/-! ## An interrupt run leaves transactions of its own context -/

/-- The trace of `s` is `bus`, followed by transactions of the interrupt context. -/
def AfterIrq (bus : List BusEvent) (s : State) : Prop := ∃ evs, s.bus = bus ++ evs ∧ AllIrq evs

namespace AfterIrq

variable {bus : List BusEvent}

theorem refl (s : State) : AfterIrq s.bus s := ⟨[], (List.append_nil _).symm, AllIrq.nil⟩

theorem congr {s t : State} (h : AfterIrq bus s) (hbus : t.bus = s.bus) : AfterIrq bus t := by
  unfold AfterIrq
  rwa [hbus]

theorem pushBus {s : State} (h : AfterIrq bus s) {e : BusEvent} (he : e.ctx = .irq) : AfterIrq bus (s.pushBus e) := by
  obtain ⟨evs, hbus, hevs⟩ := h
  refine ⟨evs ++ [e], ?_, List.forall_mem_append.2 ⟨hevs, AllIrq.singleton he⟩⟩
  rw [← List.append_assoc, ← hbus]
  rfl

theorem irqElem {α : Type} {x : Op α} (hx : Stays (AfterIrq bus) x) : Stays (AfterIrq bus) (irqElem x) := by
  refine Stays.bind (fun s hs => ?_) fun _ => Stays.bind (Stays.update fun s hs => hs.congr rfl) fun _ => hx
  obtain ⟨t, ht, hf⟩ := runBoundary_ok s
  rw [ht]
  exact hs.congr (by rw [hf])

theorem irqRead (l : Loc) : Stays (AfterIrq bus) (irqRead l) :=
  irqElem (Stays.busRead _ _ fun s hs => (hs.congr (t := s.setEnv _) rfl).pushBus rfl)

theorem irqWrite (l : Loc) (v : Byte) : Stays (AfterIrq bus) (irqWrite l v) :=
  irqElem (Stays.busWrite _ _ _ fun s hs => (hs.congr (t := s.setEnv _) rfl).pushBus rfl)

theorem irqUpdate {f : State → State} (hf : ∀ s, (f s).bus = s.bus) :
    Stays (AfterIrq bus) (Machine.irqElem (Op.update f)) := irqElem (Stays.update fun s hs => hs.congr (hf s))

theorem readFifo (b : Loc) (off n : Nat) : Stays (AfterIrq bus) (readFifo b off n) := by
  induction n generalizing off with
  | zero => exact Stays.pure _
  | succ n ih => exact Stays.bind (irqRead _) fun _ => Stays.bind (ih _) fun _ => Stays.pure _

theorem commitFrame (p : Params) (L : Byte) (fcf : Half) (h : RxShape) :
    Stays (AfterIrq bus) (commitFrame p L fcf h) :=
  Stays.bind (irqRead _) fun _ => Stays.bind (irqRead _) fun _ => Stays.bind (irqRead _) fun _ =>
    Stays.bind (readFifo _ _ _) fun _ => Stays.bind (readFifo _ _ _) fun _ => Stays.bind (readFifo _ _ _) fun _ =>
    Stays.bind (irqRead _) fun _ => Stays.bind (irqRead _) fun _ => Stays.bind (irqUpdate fun _ => rfl) fun _ =>
    Stays.bind (irqWrite _ _) fun _ => irqUpdate fun _ => rfl

theorem opRxpath : Stays (AfterIrq bus) opRxpath := by
  refine Stays.bind (Stays.view _) fun p => Stays.bind (irqWrite _ _) fun _ => Stays.bind (irqRead _) fun L =>
    Stays.bind (irqRead _) fun lo => Stays.bind (irqRead _) fun hi => ?_
  split
  · exact irqWrite _ _
  · exact commitFrame _ _ _ _

theorem opTxpath : Stays (AfterIrq bus) opTxpath :=
  Stays.bind (Stays.view _) fun _ => Stays.bind (irqRead _) fun _ => Stays.bind (irqUpdate fun _ => rfl) fun _ =>
    irqUpdate fun _ => rfl

theorem opIrq : Stays (AfterIrq bus) opIrq :=
  Stays.bind (Stays.view _) fun _ => Stays.bind (irqRead _) fun _ =>
    Stays.bind (Stays.ite _ opRxpath (Stays.pure _)) fun _ => Stays.ite _ opTxpath (Stays.pure _)

theorem irqRun : Stays (AfterIrq bus) irqRun := by
  intro s hs
  have hx := opIrq (bus := bus) (enterIrq s) (hs.congr rfl)
  unfold Machine.irqRun
  cases hxs : Machine.opIrq (enterIrq s) with
  | ok a t => rw [hxs] at hx; exact hx.congr rfl
  | error e t =>
    rw [hxs] at hx
    cases e with
    | code c => exact (hx c rfl).congr rfl
    | fault f => exact nofun

theorem drain (as : List Act) : Stays (AfterIrq bus) (drain as) := by
  induction as with
  | nil =>
    intro s hs
    have hdrawn : AfterIrq bus (s.setAgenda []).bumpDraws := hs.congr rfl
    unfold Machine.drain
    by_cases hc : entryCond s = true
    · rw [if_pos hc]
      by_cases hp : Config.freePreempt s.env.draws = true
      · rw [if_pos hp]; exact irqRun _ hdrawn
      · rw [if_neg hp]; exact hdrawn
    · rw [if_neg hc]; exact hs.congr rfl
  | cons a as ih =>
    intro s hs
    cases a with
    | proceed => exact hs.congr rfl
    | env m => exact ih _ (hs.congr rfl)
    | startIrq =>
      have hr := irqRun s hs
      unfold Machine.drain
      by_cases hc : entryCond s = true
      · rw [if_pos hc]
        cases hx : Machine.irqRun s with
        | ok a t => rw [hx] at hr; exact ih t hr
        | error e t => rw [hx] at hr; exact hr
      · rw [if_neg hc]; exact ih s hs

end AfterIrq

/-! ## Operations that only faults end early -/

/-- A row of the main context that ends in a next state ended its operation well, or with the code of its result. -/
theorem runMain_eq_next {i : Instr} {x : Op Value} {s t : State} (h : runMain i x s = .next t) :
    (∃ v u, x (s.setMainCtl (.running i 0)) = .ok v u ∧ t = u.finish .ok v) ∨
    ∃ c u, x (s.setMainCtl (.running i 0)) = .error (.code c) u ∧ t = u.finish c .none := by
  unfold runMain at h
  cases hm : s.mainCtl with
  | running op k => rw [hm] at h; cases h
  | idle =>
    rw [hm] at h
    simp only at h
    cases hxs : x (s.setMainCtl (.running i 0)) with
    | ok v u => rw [hxs] at h; cases h; exact .inl ⟨v, u, rfl, rfl⟩
    | error e u =>
      rw [hxs] at h
      cases e with
      | code c => cases h; exact .inr ⟨c, u, rfl, rfl⟩
      | fault f => cases h

/-- Between the states before and after the operation `R` holds, and only a fault ends it early. -/
def Leads {α : Type} (R : State → State → Prop) (x : Op α) : Prop :=
  ∀ s, match x s with | .ok _ t => R s t | .error e _ => ∃ f, e = .fault f

namespace Leads

variable {α β : Type} {R R' R'' : State → State → Prop}

theorem bind {x : Op α} {k : α → Op β} (hx : Leads R x) (hk : ∀ a, Leads R' (k a))
    (hR : ∀ s t u, R s t → R' t u → R'' s u) : Leads R'' (x >>= k) := by
  intro s
  have hx := hx s
  rw [op_bind]
  cases hxs : x s with
  | error e t => rw [hxs] at hx; exact hx
  | ok a t =>
    rw [hxs] at hx
    have hk := hk a t
    simp only
    cases hks : k a t with
    | error e u => rw [hks] at hk; exact hk
    | ok b u => rw [hks] at hk; exact hR s t u hx hk

theorem imp {x : Op α} (hx : Leads R x) (hR : ∀ s t, R s t → R' s t) : Leads R' x := by
  intro s
  have hx := hx s
  cases hxs : x s with
  | error e t => rw [hxs] at hx; exact hx
  | ok a t => rw [hxs] at hx; exact hR s t hx

/-- A look at the state changes nothing, so that what follows it leads on from there. -/
theorem view {f : State → α} {k : α → Op β} (hk : ∀ a, Leads R (k a)) : Leads R (Op.view f >>= k) :=
  fun s => hk (f s) s

theorem ite (b : Prop) [Decidable b] {x y : Op α} (hx : Leads R x) (hy : Leads R y) :
    Leads R (if b then x else y) := by split <;> assumption

/-- A row of the main context whose operation only a fault ends early. -/
theorem of_runMain {i : Instr} {x : Op Value} (hx : Leads R x) {s t : State} (h : runMain i x s = .next t) :
    ∃ u v, R (s.setMainCtl (.running i 0)) u ∧ t = u.finish .ok v := by
  have hx := hx (s.setMainCtl (.running i 0))
  obtain ⟨v, u, hxs, rfl⟩ | ⟨c, u, hxs, rfl⟩ := runMain_eq_next h <;> rw [hxs] at hx
  · exact ⟨u, v, hx, rfl⟩
  · obtain ⟨f, hf⟩ := hx
    cases hf

end Leads

/-- `t` comes after `s` with transactions of the interrupt context alone; the events grow, and nothing is sent. -/
structure ByIrq (s t : State) : Prop where
  par : t.par = s.par
  txSeq : t.txSeq = s.txSeq
  out : ∃ new, t.out = s.out ++ new
  bus : AfterIrq s.bus t

theorem AfterIrq.trans {bus : List BusEvent} {s t : State} (h : AfterIrq bus s) (k : AfterIrq s.bus t) :
    AfterIrq bus t := by
  obtain ⟨xs, hxs, hx⟩ := h
  obtain ⟨ys, hys, hy⟩ := k
  exact ⟨xs ++ ys, by rw [hys, hxs, List.append_assoc], List.forall_mem_append.2 ⟨hx, hy⟩⟩

theorem ByIrq.refl (s : State) : ByIrq s s := ⟨rfl, rfl, ⟨[], (List.append_nil _).symm⟩, .refl s⟩

theorem ByIrq.trans {s t u : State} (h : ByIrq s t) (k : ByIrq t u) : ByIrq s u := by
  obtain ⟨xs, hxs⟩ := h.out
  obtain ⟨ys, hys⟩ := k.out
  exact ⟨k.par.trans h.par, k.txSeq.trans h.txSeq, ⟨xs ++ ys, by rw [hys, hxs, List.append_assoc]⟩, h.bus.trans k.bus⟩

/-- Between two steps of the main context come transactions of the interrupt context, and no event is put out. -/
theorem boundary_byIrq : Leads (fun s t => ByIrq s t ∧ t.out = s.out) boundary := by
  intro s
  have hf := drain_frame s.env.agenda s
  have hbus := AfterIrq.drain s.env.agenda s (.refl s)
  rw [show boundary s = drain s.env.agenda s from rfl]
  cases hx : drain s.env.agenda s with
  | error e t => rw [hx] at hf; exact hf
  | ok a t =>
    rw [hx] at hf hbus
    have hout : t.out = s.out := by rw [hf]
    exact ⟨⟨by rw [hf], by rw [hf], ⟨[], by rw [hout, List.append_nil]⟩, hbus⟩, hout⟩

/-- An operation of the main context that makes no transaction of its own, puts out what it may, and sends nothing. -/
abbrev Idles {α : Type} (x : Op α) : Prop := Leads ByIrq x

namespace Idles

theorem bind {α β : Type} {x : Op α} {k : α → Op β} (hx : Idles x) (hk : ∀ a, Idles (k a)) : Idles (x >>= k) :=
  Leads.bind hx hk fun _ _ _ => ByIrq.trans

theorem pure {α : Type} (a : α) : Idles (pure a : Op α) := ByIrq.refl
theorem view {α : Type} (f : State → α) : Idles (Op.view f) := ByIrq.refl

theorem update {f : State → State}
    (hf : ∀ s, (f s).par = s.par ∧ (f s).txSeq = s.txSeq ∧ (f s).out = s.out ∧ (f s).bus = s.bus) :
    Idles (Op.update f) := by
  intro s
  obtain ⟨hpar, htxSeq, hout, hbus⟩ := hf s
  exact ⟨hpar, htxSeq, ⟨[], by rw [hout, List.append_nil]⟩, (AfterIrq.refl s).congr hbus⟩

theorem elem {α : Type} {x : Op α} (hx : Idles x) : Idles (elem x) :=
  bind (boundary_byIrq.imp fun _ _ => And.left) fun _ => bind (update fun _ => ⟨rfl, rfl, rfl, rfl⟩) fun _ => hx

theorem mainEmit (e : OutEvent) : Idles (mainEmit e) :=
  elem fun s => ⟨rfl, rfl, ⟨[e], rfl⟩, .refl s⟩

theorem forwardFrame (tag : Tag) : Idles (forwardFrame tag) := bind (view _) fun _ => mainEmit _

theorem mutateDev (f : DeviceRecord → DeviceRecord) : Idles (mutateDev f) :=
  elem (update fun _ => ⟨rfl, rfl, rfl, rfl⟩)

theorem nextLs : Idles nextLs :=
  elem (bind (view _) fun _ => bind (update fun _ => ⟨rfl, rfl, rfl, rfl⟩) fun _ => pure _)

theorem snapshot : Idles (mainUpdate fun s => s.setDec (decCtx s.par s.dev s.rxRec)) :=
  elem (update fun _ => ⟨rfl, rfl, rfl, rfl⟩)

theorem opMalformed : Idles opMalformed := bind (view _) fun _ => Leads.ite _ (forwardFrame _) (pure _)
theorem opOnTxComplete : Idles opOnTxComplete := bind (elem (view _)) fun _ => mainEmit _

theorem testClearRx : Idles testClearRx :=
  elem (bind (view _) fun _ => bind (update fun _ => ⟨rfl, rfl, rfl, rfl⟩) fun _ => pure _)

theorem testClearTx : Idles testClearTx :=
  elem (bind (view _) fun _ => bind (update fun _ => ⟨rfl, rfl, rfl, rfl⟩) fun _ => pure _)

end Idles

/-! ## Under the mask (20 R58) -/

/-- Writes of the main context. -/
abbrev MainWrites (evs : List BusEvent) : Prop := ∀ e ∈ evs, e.ctx = .main ∧ e.dir = .write

/-- Writes of the main context to the locations, in order. -/
def WritesTo (ls : List Loc) (evs : List BusEvent) : Prop := evs.map (·.loc) = ls ∧ MainWrites evs

theorem WritesTo.append {ls ms : List Loc} {xs ys : List BusEvent} (h : WritesTo ls xs) (k : WritesTo ms ys) :
    WritesTo (ls ++ ms) (xs ++ ys) :=
  ⟨by rw [List.map_append, h.1, k.1], List.forall_mem_append.2 ⟨h.2, k.2⟩⟩

theorem WritesTo.length {ls : List Loc} {evs : List BusEvent} (h : WritesTo ls evs) : evs.length = ls.length := by
  rw [← h.1, List.length_map]

/-- Started under the mask, the operation leaves the mask at `m` and on the trace only transactions of which `T` holds;
or it ends early, but not with OK. -/
def UnderMask {α : Type} (m : Bool) (x : Op α) (T : List BusEvent → Prop) : Prop :=
  ∀ s, s.irqMask = true → match x s with
    | .ok _ t => t.irqMask = m ∧ ∃ evs, t.bus = s.bus ++ evs ∧ T evs
    | .error e _ => e ≠ .code .ok

namespace UnderMask

variable {α β : Type} {m : Bool} {T U V : List BusEvent → Prop}

theorem bind {x : Op α} {k : α → Op β} (hx : UnderMask true x T) (hk : ∀ a, UnderMask m (k a) U)
    (hV : ∀ xs ys, T xs → U ys → V (xs ++ ys)) : UnderMask m (x >>= k) V := by
  intro s hs
  have hx := hx s hs
  rw [op_bind]
  cases hxs : x s with
  | error e t => rw [hxs] at hx; exact hx
  | ok a t =>
    rw [hxs] at hx
    obtain ⟨ht, xs, hxs, hT⟩ := hx
    have hk := hk a t ht
    simp only
    cases hks : k a t with
    | error e u => rw [hks] at hk; exact hk
    | ok b u =>
      rw [hks] at hk
      obtain ⟨hu, ys, hys, hU⟩ := hk
      exact ⟨hu, xs ++ ys, by rw [hys, hxs, List.append_assoc], hV xs ys hT hU⟩

theorem view {f : State → α} {k : α → Op β} (hk : ∀ a, UnderMask m (k a) T) : UnderMask m (Op.view f >>= k) T :=
  fun s hs => hk (f s) s hs

theorem pure (a : α) : UnderMask true (pure a : Op α) (WritesTo []) :=
  fun _ hs => ⟨hs, [], (List.append_nil _).symm, rfl, List.forall_mem_nil _⟩

/-- Before a step that stands under the mask only the environment moves. -/
theorem elem {x : Op α} (hx : UnderMask m x T) : UnderMask m (elem x) T := by
  intro s hs
  obtain ⟨t, ht, hf⟩ := drain_masked s.env.agenda s hs
  have hmask : t.irqMask = true := by rw [hf]; exact hs
  have hbus : t.bus = s.bus := by rw [hf]
  have hx := hx (t.setMainCtl t.mainCtl.tick) hmask
  unfold Machine.elem
  rw [op_bind_ok (show boundary s = .ok () t from ht), op_bind_ok (op_update _ _)]
  rwa [State.setMainCtl_bus, hbus] at hx

theorem mainWrite (l : Loc) (v : Byte) : UnderMask true (mainWrite l v) (WritesTo [l]) := by
  refine elem fun _ hs => ?_
  unfold busWrite
  split_ifs
  · exact nofun
  · exact nofun
  · exact ⟨hs, [_], rfl, rfl, List.forall_mem_singleton.2 ⟨rfl, rfl⟩⟩

theorem mainUpdate {f : State → State} (hf : ∀ s, (f s).irqMask = s.irqMask ∧ (f s).bus = s.bus) :
    UnderMask true (mainUpdate f) (WritesTo []) :=
  elem fun s hs => ⟨(hf s).1.trans hs, [], by rw [List.append_nil]; exact (hf s).2, rfl, List.forall_mem_nil _⟩

theorem unmaskIrq : UnderMask false (Machine.elem unmaskIrq) (WritesTo []) :=
  elem fun _ _ => ⟨rfl, [], (List.append_nil _).symm, rfl, List.forall_mem_nil _⟩

theorem wrFifo (b : Loc) (off : Nat) (vs : List Byte) :
    UnderMask true (wrFifo b off vs) (WritesTo (locsAt b off vs.length)) := by
  induction vs generalizing off with
  | nil => exact pure ()
  | cons v vs ih => exact bind (mainWrite _ _) (fun _ => ih (off + 1)) fun _ _ => WritesTo.append

/-- The seven bytes of the header (41 R125, R127). -/
theorem writeHeader (b : Loc) (hdr len : Nat) (fcf : Half) :
    UnderMask true (writeHeader b hdr len fcf) (WritesTo (locsAt b 0 7)) :=
  bind (wrFifo b 0 (txPrefix hdr len fcf)) (fun _ => view fun q =>
    bind (wrFifo b 4 [q]) (fun _ => bind (mainUpdate fun _ => ⟨rfl, rfl⟩) (fun _ => view fun c =>
      wrFifo b 5 (leBytes c.pan)) fun _ _ => WritesTo.append) fun _ _ => WritesTo.append) fun _ _ => WritesTo.append

end UnderMask

/-- Writes of the main context, the last of them to the trigger. -/
structure EndsWithTrigger (r : RegMap) (evs : List BusEvent) : Prop where
  writes : MainWrites evs
  last : ∃ e, evs.getLast? = some e ∧ e.loc = r.txncon

theorem EndsWithTrigger.append {r : RegMap} {xs ys : List BusEvent} (hxs : MainWrites xs) (h : EndsWithTrigger r ys) :
    EndsWithTrigger r (xs ++ ys) where
  writes := List.forall_mem_append.2 ⟨hxs, h.writes⟩
  last := by
    obtain ⟨e, hlast, he⟩ := h.last
    exact ⟨e, by simp [hlast], he⟩

/-- The header, and then writes that end with the trigger, make a frame. -/
theorem EndsWithTrigger.frameTrace {r : RegMap} {xs ys : List BusEvent} (hxs : WritesTo (locsAt r.txfifo 0 7) xs)
    (h : EndsWithTrigger r ys) : FrameTrace r (xs ++ ys) := by
  obtain ⟨hwrites, hlast⟩ := h.append hxs.2
  have hlength : xs.length = 7 := hxs.length
  have hpos : 0 < ys.length := by
    obtain ⟨e, he, -⟩ := h.last
    exact List.length_pos_of_mem (List.mem_of_getLast? he)
  refine ⟨by rw [List.length_append]; omega, hwrites, ?_, hlast⟩
  cases xs with
  | nil => cases hlength
  | cons e xs => exact ⟨e, rfl, List.head_eq_of_cons_eq hxs.1⟩

/-! ## A send (41 R125, R127) -/

namespace UnderMask

/-- Bytes written before the trigger. -/
theorem bytesThen {r : RegMap} (b : Loc) (off : Nat) (vs : List Byte) {k : Unit → Op Unit}
    (hk : ∀ u, UnderMask false (k u) (EndsWithTrigger r)) :
    UnderMask false (Machine.wrFifo b off vs >>= k) (EndsWithTrigger r) :=
  bind (wrFifo b off vs) hk fun _ _ hxs => EndsWithTrigger.append hxs.2

theorem trigger (r : RegMap) (v : Byte) :
    UnderMask false (do Machine.mainWrite r.txncon v; Machine.elem Machine.unmaskIrq) (EndsWithTrigger r) := by
  refine bind (mainWrite r.txncon v) (fun _ => unmaskIrq) fun xs ys hxs hys => ?_
  obtain ⟨hloc, hwrites⟩ := hxs.append hys
  refine ⟨hwrites, ?_⟩
  have hlast : ((xs ++ ys).map (·.loc)).getLast? = some r.txncon := by rw [hloc]; rfl
  rw [List.getLast?_map] at hlast
  exact Option.map_eq_some_iff.1 hlast

theorem writeFrame (p : Params) (h : HdrShape) (fcf : Half) (payload : List Byte) :
    UnderMask false (writeFrame p h fcf payload) (FrameTrace p.reg) :=
  bind (writeHeader _ _ _ _) (fun _ => view fun _ => bytesThen _ _ _ fun _ => view fun _ => bytesThen _ _ _ fun _ =>
    bytesThen _ _ _ fun _ => trigger p.reg _) fun _ _ => EndsWithTrigger.frameTrace

/-- The destination test that fails ends with its code, after the mask was taken away (41 R125). -/
theorem noDest (T : List BusEvent → Prop) :
    UnderMask false (do Machine.elem Machine.unmaskIrq; Op.raise .noDest : Op Unit) T := by
  intro s hs
  have hx := unmaskIrq s hs
  rw [op_bind]
  cases hxs : Machine.elem Machine.unmaskIrq s with
  | error e t => rw [hxs] at hx; exact hx
  | ok a t => exact nofun

end UnderMask

/-- Under the configuration `p` the operation sends a frame, which only transactions of the interrupt context precede on
the trace and nothing follows; or it ends early, but not with OK. -/
def Sends {α : Type} (p : Params) (x : Op α) : Prop :=
  ∀ s, s.par = p → match x s with
    | .ok _ t => ∃ pre evs, t.bus = s.bus ++ pre ++ evs ∧ AllIrq pre ∧ FrameTrace p.reg evs
    | .error e _ => e ≠ .code .ok

namespace Sends

variable {p : Params} {α : Type}

theorem raise {c : Code} (hc : c ≠ .ok := by decide) : Sends p (Op.raise c : Op α) :=
  fun _ _ h => hc (Raise.code.inj h)

theorem require {b : Bool} {c : Code} {k : Unit → Op α} (hk : Sends p (k ())) (hc : c ≠ .ok := by decide) :
    Sends p (Op.require b c >>= k) := by
  cases b with
  | false => exact raise (α := α) hc
  | true => exact hk

theorem requireReady {k : Unit → Op α} (hk : Sends p (k ())) : Sends p (requireReady >>= k) :=
  fun s hs => require (b := decide (s.drv = .ready)) (c := .notReady) hk nofun s hs

theorem viewPar {k : Params → Op α} (hk : Sends p (k p)) : Sends p (Op.view (·.par) >>= k) := by
  rintro s rfl
  exact hk s rfl

/-- Before the mask is set the interrupt context may run, from there on it may not. -/
theorem maskThen {k : Unit → Op α} (hk : ∀ u, UnderMask false (k u) (FrameTrace p.reg)) :
    Sends p (elem maskIrq >>= k) := by
  intro s _
  have hx := boundary_byIrq s
  rw [op_bind, elem, op_bind]
  cases hxs : boundary s with
  | error e t =>
    rw [hxs] at hx
    obtain ⟨f, rfl⟩ := hx
    exact nofun
  | ok a t =>
    rw [hxs] at hx
    obtain ⟨pre, hbus, hpre⟩ := hx.1.bus
    have hk := hk () ((t.setMainCtl t.mainCtl.tick).setIrqMask true) rfl
    simp only [op_bind_ok (op_update _ _), maskIrq, op_update]
    cases hks : k () ((t.setMainCtl t.mainCtl.tick).setIrqMask true) with
    | error e u => rw [hks] at hk; exact hk
    | ok b u =>
      rw [hks] at hk
      obtain ⟨-, evs, hevs, hT⟩ := hk
      exact ⟨pre, evs, hbus ▸ hevs, hpre, hT⟩

theorem opSend (fcf : Half) (payload : List Byte) : Sends p (opSend fcf payload) := by
  refine requireReady (viewPar ?_)
  cases hdrShape fcf with
  | none => exact raise
  | some h =>
    refine require (maskThen fun _ => UnderMask.view fun r => ?_)
    split
    · exact UnderMask.noDest _
    · exact UnderMask.writeFrame p h fcf payload

theorem opSend16Ack (dest : Half) (payload : List Byte) : Sends p (opSend16Ack dest payload) :=
  requireReady (require (viewPar (maskThen fun _ => UnderMask.bind (UnderMask.writeHeader _ _ _ _)
    (fun _ => UnderMask.bytesThen _ _ _ fun _ => UnderMask.view fun _ => UnderMask.bytesThen _ _ _ fun _ =>
      UnderMask.bytesThen _ _ _ fun _ => UnderMask.trigger p.reg _)
    fun _ _ => EndsWithTrigger.frameTrace)))

/-- An operation without a value of its own, as the body of a row. -/
theorem thenNone {x : Op Unit} (hx : Sends p x) : Sends p (do x; Pure.pure Value.none) := by
  intro s hs
  have hx := hx s hs
  rw [op_bind]
  cases hxs : x s with
  | ok a t => rw [hxs] at hx; exact hx
  | error e t => rw [hxs] at hx; exact hx

/-- A row that sends, and ends with OK, leaves its frame at the end of the trace. -/
theorem of_runMain {i : Instr} {x : Op Value} {s t : State} (hx : Sends s.par x) (h : runMain i x s = .next t)
    (hok : t.result.code = .ok) : ∃ pre evs, t.bus = s.bus ++ pre ++ evs ∧ AllIrq pre ∧ FrameTrace s.par.reg evs := by
  have hx := hx (s.setMainCtl (.running i 0)) rfl
  obtain ⟨v, u, hxs, rfl⟩ | ⟨c, u, hxs, rfl⟩ := runMain_eq_next h <;> rw [hxs] at hx
  · exact hx
  · exact absurd (congrArg Raise.code hok) hx

end Sends

/-! ## A reply (43 R173) -/

/-- `t` comes after `s` with a frame on the trace, around which only the interrupt context made transactions. -/
def FrameBetween (s t : State) : Prop :=
  ∃ pre evs post, t.bus = s.bus ++ pre ++ evs ++ post ∧ AllIrq (pre ++ post) ∧ FrameTrace s.par.reg evs

/-- `t` comes after `s` with a reply: it was refused, and that was put out, or its frame was sent. -/
def Answered (s t : State) : Prop :=
  ∃ new, t.out = s.out ++ new ∧ ((∃ c, OutEvent.replyRefused c ∈ new) ∨ FrameBetween s t)

theorem Answered.frameBetween {s t : State} (h : Answered s t) (hno : NoReplyRefused s t) : FrameBetween s t := by
  obtain ⟨new, hnew, ⟨c, hc⟩ | hframe⟩ := h
  · exact absurd hc (hno new hnew c)
  · exact hframe

theorem FrameBetween.byIrq {s t u : State} (h : FrameBetween s t) (k : ByIrq t u) : FrameBetween s u := by
  obtain ⟨pre, evs, post, hbus, hirq, hframe⟩ := h
  obtain ⟨ys, hys, hy⟩ := k.bus
  refine ⟨pre, evs, post ++ ys, by rw [hys, hbus, List.append_assoc], ?_, hframe⟩
  rw [← List.append_assoc]
  exact List.forall_mem_append.2 ⟨hirq, hy⟩

theorem ByIrq.frameBetween {s t u : State} (h : ByIrq s t) (k : FrameBetween t u) : FrameBetween s u := by
  obtain ⟨xs, hxs, hx⟩ := h.bus
  obtain ⟨pre, evs, post, hbus, hirq, hframe⟩ := k
  refine ⟨xs ++ pre, evs, post, by rw [hbus, hxs, List.append_assoc s.bus], ?_, h.par ▸ hframe⟩
  rw [List.append_assoc]
  exact List.forall_mem_append.2 ⟨hx, hirq⟩

theorem Answered.byIrq {s t u : State} (h : Answered s t) (k : ByIrq t u) : Answered s u := by
  obtain ⟨xs, hxs, h⟩ := h
  obtain ⟨ys, hys⟩ := k.out
  refine ⟨xs ++ ys, by rw [hys, hxs, List.append_assoc], h.imp ?_ fun hframe => hframe.byIrq k⟩
  exact fun ⟨c, hc⟩ => ⟨c, List.mem_append_left _ hc⟩

theorem ByIrq.answered {s t u : State} (h : ByIrq s t) (k : Answered t u) : Answered s u := by
  obtain ⟨xs, hxs⟩ := h.out
  obtain ⟨ys, hys, k⟩ := k
  refine ⟨xs ++ ys, by rw [hys, hxs, List.append_assoc], k.imp ?_ h.frameBetween⟩
  exact fun ⟨c, hc⟩ => ⟨c, List.mem_append_right _ hc⟩

theorem mainEmit_out (e : OutEvent) : Leads (fun s t => t.out = s.out ++ [e]) (mainEmit e) := by
  refine Leads.bind boundary_byIrq (R' := fun s t => t.out = s.out ++ [e]) (fun _ _ => rfl) ?_
  rintro s t u ⟨-, hout⟩ hu
  rw [hu, hout]

/-- An operation of the main context that answers: once it sends a reply, or reports that the reply was refused. -/
abbrev Answers {α : Type} (x : Op α) : Prop := Leads Answered x

namespace Answers

theorem after {α β : Type} {x : Op α} {k : α → Op β} (hx : Idles x) (hk : ∀ a, Answers (k a)) : Answers (x >>= k) :=
  Leads.bind hx hk fun _ _ _ => ByIrq.answered

theorem before {α β : Type} {x : Op α} {k : α → Op β} (hx : Answers x) (hk : ∀ a, Idles (k a)) : Answers (x >>= k) :=
  Leads.bind hx hk fun _ _ _ => Answered.byIrq

/-- What `send` answers decides: its frame is on the trace, or its code, which is not OK, is reported (43 R173). -/
theorem opReply (fcf : Half) (body : List Byte) : Answers (opReply fcf body) := by
  intro s
  have hsend := Sends.opSend fcf body s rfl
  have hwithin := Touches.opSend fcf body s
  rw [Machine.opReply, op_bind, Op.attempt]
  cases hxs : Machine.opSend fcf body s with
  | ok a t =>
    rw [hxs] at hsend hwithin
    obtain ⟨pre, evs, hbus, hpre, hframe⟩ := hsend
    refine ⟨[], by rw [List.append_nil]; exact hwithin.out rfl, .inr ⟨pre, evs, [], ?_, ?_, hframe⟩⟩
    · rw [List.append_nil]; exact hbus
    · rw [List.append_nil]; exact hpre
  | error e t =>
    rw [hxs] at hsend hwithin
    cases e with
    | fault f => exact ⟨f, rfl⟩
    | code c =>
      have hc : c ≠ .ok := fun h => hsend (congrArg Raise.code h)
      have hemit := mainEmit_out (.replyRefused c) t
      simp only [if_neg hc]
      cases hes : mainEmit (.replyRefused c) t with
      | error e u => rw [hes] at hemit; exact hemit
      | ok a u =>
        rw [hes] at hemit
        have hout : t.out = s.out := (hwithin c rfl).out rfl
        exact ⟨[.replyRefused c], hout ▸ hemit, .inl ⟨c, List.mem_singleton_self _⟩⟩

theorem opM07 (p1 : Byte) : Answers (opM07 p1) := after (Idles.mutateDev _) fun _ => Leads.view fun _ => opReply _ _
theorem opM01A : Answers opM01A := after (Idles.mutateDev _) fun _ => opReply _ _

theorem opM13 (p1 : Byte) : Answers (opM13 p1) :=
  after (Idles.mutateDev _) fun _ => after Idles.nextLs fun _ => opReply _ _

theorem opM08 (p2 : Byte) : Answers (opM08 p2) :=
  after (Idles.mutateDev _) fun _ => after Idles.nextLs fun _ => Leads.view fun _ => opReply _ _

theorem opM01D (p1 p2 : Byte) : Answers (opM01D p1 p2) :=
  after (Idles.mutateDev _) fun _ => after Idles.nextLs fun _ => before (opReply _ _) fun _ => Idles.forwardFrame _

theorem opM02 (p2 : Byte) : Answers (opM02 p2) :=
  after (Idles.mutateDev _) fun _ => after Idles.nextLs fun _ => Leads.view fun _ =>
    before (opReply _ _) fun _ => Idles.forwardFrame _

/-- An operation without a value of its own, as the body of a row. -/
theorem thenNone {x : Op Unit} (hx : Answers x) : Answers (do x; Pure.pure Value.none) :=
  before hx fun _ => Idles.pure _

end Answers

/-! ## The RX handler and the pump (42 R146, 43 R161) -/

/-- `t` comes after `s` with a reply or without one. -/
def MayAnswer (s t : State) : Prop := ByIrq s t ∨ Answered s t

theorem ByIrq.mayAnswer {s t u : State} (h : ByIrq s t) (k : MayAnswer t u) : MayAnswer s u :=
  k.imp h.trans h.answered

theorem MayAnswer.byIrq {s t u : State} (h : MayAnswer s t) (k : ByIrq t u) : MayAnswer s u :=
  h.imp (·.trans k) (·.byIrq k)

/-- Of the actions the first six answer, the others make no transaction. -/
theorem runAction_mayAnswer (i : Instr) : Leads MayAnswer (runAction i) := by
  have answers {x : Op Unit} (hx : Answers x) : Leads MayAnswer x := hx.imp fun _ _ => .inr
  have idles {x : Op Unit} (hx : Idles x) : Leads MayAnswer x := hx.imp fun _ _ => .inl
  cases i with
  | m07 p1 => exact answers (Answers.opM07 p1)
  | m01a => exact answers Answers.opM01A
  | m13 p1 => exact answers (Answers.opM13 p1)
  | m08 p2 => exact answers (Answers.opM08 p2)
  | m01d p1 p2 => exact answers (Answers.opM01D p1 p2)
  | m02 p2 => exact answers (Answers.opM02 p2)
  | m0a p1 => exact idles (Idles.mutateDev _)
  | mxx t => exact idles (Idles.forwardFrame _)
  | malformed => exact idles Idles.opMalformed
  | _ => exact idles (Idles.pure _)

theorem opOnReceive_mayAnswer : Leads MayAnswer opOnReceive :=
  Leads.bind Idles.snapshot (fun _ => Leads.view fun _ => runAction_mayAnswer _) fun _ _ _ => ByIrq.mayAnswer

/-- Only the first half of `poll`, the RX handler, can answer. -/
theorem opPoll_mayAnswer : Leads MayAnswer opPoll := by
  have served (t : Bool) : Idles (if t then opOnTxComplete else pure ()) :=
    Leads.ite _ Idles.opOnTxComplete (Idles.pure _)
  have received (r : Bool) : Leads MayAnswer (if r then opOnReceive else pure ()) :=
    Leads.ite _ opOnReceive_mayAnswer ((Idles.pure ()).imp fun _ _ => .inl)
  exact Leads.bind Idles.testClearRx (fun r => Leads.bind (received r)
    (fun _ => Idles.bind Idles.testClearTx served) fun _ _ _ => MayAnswer.byIrq) fun _ _ _ => ByIrq.mayAnswer

/-! ## The rows -/

/-- A row that answers ends with its answer. -/
theorem Answers.answered {i : Instr} {x : Op Unit} (hx : Answers x) {s t : State}
    (h : runMain i (do x; pure .none) s = .next t) : Answered s t := by
  obtain ⟨u, v, hu, rfl⟩ := Leads.of_runMain hx.thenNone h
  exact hu

/-- A row that may answer did so if `tx_seq` changed. -/
theorem answered_of_txSeq {i : Instr} {x : Op Unit} (hx : Leads MayAnswer x) {s t : State}
    (h : runMain i (do x; pure .none) s = .next t) (htx : t.txSeq ≠ s.txSeq) : Answered s t := by
  have hrow : Leads MayAnswer (do x; pure Value.none) :=
    Leads.bind hx (fun _ => Idles.pure _) fun _ _ _ => MayAnswer.byIrq
  obtain ⟨u, v, hirq | hanswered, rfl⟩ := hrow.of_runMain h
  · exact absurd hirq.txSeq htx
  · exact hanswered

theorem exec_answered {i : Instr} (hi : i.mayReply = true) {s t : State} (h : exec i s = .next t)
    (htx : i = .poll ∨ i = .onReceive → t.txSeq ≠ s.txSeq) : Answered s t := by
  cases i with
  | poll => exact answered_of_txSeq opPoll_mayAnswer h (htx (.inl rfl))
  | onReceive => exact answered_of_txSeq opOnReceive_mayAnswer h (htx (.inr rfl))
  | m07 p1 => exact (Answers.opM07 p1).answered h
  | m01a => exact Answers.opM01A.answered h
  | m13 p1 => exact (Answers.opM13 p1).answered h
  | m08 p2 => exact (Answers.opM08 p2).answered h
  | m01d p1 p2 => exact (Answers.opM01D p1 p2).answered h
  | m02 p2 => exact (Answers.opM02 p2).answered h
  | _ => cases hi

/-- Settles O52: a send's frame is written under the mask (`Sends`), and a reply that was not refused is such a send. -/
theorem sendIsNeverTorn : Obligations.SendIsNeverTorn := by
  refine ⟨?sends, fun i s t hi h hno htx => (exec_answered hi h htx).frameBetween hno⟩
  case sends =>
    rintro i s t ⟨f, payload, rfl | rfl⟩ h hok
    · exact (Sends.opSend f payload).thenNone.of_runMain h hok
    · exact (Sends.opSend16Ack f payload).thenNone.of_runMain h hok

end Sys2Proof.Machine

/-! # Refusals, hardware faults and the reach of the interrupt context (60 R190 to R205)

What ends early, alone, is a chain of `Runs.bindFails` up to the step that raises the code: the test that refuses a `send`,
or the poll that runs out in `initialize`. A byte string that is no command never reaches `exec`: `step` itself answers it. -/

namespace Sys2Proof.Machine

/-! ## A poll that runs out (60 R192, 41 R112) -/

/-- A hardware fault marks the driver and ends the operation; it makes no transaction. -/
theorem Fails.hwFault {α : Type} {s : State} (hq : Quiet s) (e : Code) :
    Fails (Machine.hwFault e : Op α) s e (s.setDrv .faulted) :=
  Runs.bindFails (Runs.mainUpdate hq fun _ => rfl) Fails.raise

/-- The soft-reset poll of `initialize`, with either answer (41 R112 line 2). -/
theorem Runs.softResetPoll {s : State} (hq : Quiet s) (hp : s.par.wf = true) :
    Runs (Machine.pollUntil s.par.reg.softrst s.par.reg.mSoftrst 0 s.par.maxPoll)
      (initBegin (s.afterBusWrite .main s.par.reg.softrst s.par.reg.vSoftrst)) s.softReset.1 s.softReset.2 :=
  Runs.pollUntil _ _ _ (hq.write .main s.par.reg.softrst s.par.reg.vSoftrst) (reg_inRange hp)

/-- The ready poll of `initialize`, with either answer (41 R112 line 8). -/
theorem Runs.readyPoll {s : State} (hq : Quiet s) (hp : s.par.wf = true) :
    Runs (Machine.pollUntil s.par.reg.rfstate s.par.reg.mRxready s.par.reg.vRxready s.par.maxPoll)
      s.softReset.2.configured s.calibrated.1 s.calibrated.2 :=
  Runs.pollUntil _ _ _ hq.softReset.configured (reg_inRange hp)

/-- Lines 0 to 2 of 41 R112 always run to their end: an `initialize` that fails does so in what follows them. -/
theorem Fails.afterSoftReset {s t : State} {e : Code} (hq : Quiet s) (hp : s.par.wf = true) (hdrv : s.drv ≠ .faulted)
    {k : Params → Bool → Op Value} (hk : Fails (k s.par s.softReset.1) s.softReset.2 e t) :
    Fails (do
      let d ← Op.view (·.drv)
      Op.require (decide (d ≠ .faulted)) .notReady
      let p ← Op.view (·.par)
      Machine.mainUpdate initBegin
      Machine.mainWrite p.reg.softrst p.reg.vSoftrst
      let done ← Machine.pollUntil p.reg.softrst p.reg.mSoftrst 0 p.maxPoll
      k p done) s e t :=
  Runs.bindFails (Runs.view fun _ => rfl) (Runs.bindFails (Runs.require (decide_eq_true hdrv))
    (Runs.bindFails (Runs.view fun _ => rfl) (Runs.bindFails (Runs.mainUpdate hq fun _ => rfl)
      (Runs.bindFails (Runs.mainWrite _ (s := initBegin s) hq (reg_inRange hp))
        (Runs.bindFails (Runs.softResetPoll hq hp) hk)))))

theorem Fails.opInit_softReset {s : State} (hq : Quiet s) (hp : s.par.wf = true) (hdrv : s.drv ≠ .faulted)
    (hreset : s.softReset.1 = false) :
    Fails Machine.opInit s .hwSoftresetTimeout (s.softReset.2.setDrv .faulted) := by
  refine Fails.afterSoftReset hq hp hdrv ?_
  rw [if_neg (ne_true_of_eq_false hreset)]
  exact Fails.hwFault hq.softReset _

theorem Fails.opInit_ready {s : State} (hq : Quiet s) (hp : s.par.wf = true) (hdrv : s.drv ≠ .faulted)
    (hreset : s.softReset.1 = true) (hready : s.calibrated.1 = false) :
    Fails Machine.opInit s .hwRxreadyTimeout (s.calibrated.2.setDrv .faulted) := by
  have hconf := Runs.initConfigure hq.softReset (by simpa using hp)
  rw [softReset_par] at hconf
  refine Fails.afterSoftReset hq hp hdrv ?_
  rw [if_pos hreset]
  refine Runs.bindFails hconf (Runs.bindFails (Runs.readyPoll hq hp) ?_)
  rw [if_neg (ne_true_of_eq_false hready)]
  exact Fails.hwFault hq.calibrated _

/-- Settles O15: everything before the poll that runs out has run, and the fault is all that follows it. -/
theorem initializeTimesOut : Obligations.InitializeTimesOut := by
  intro s ⟨hq, hidle, hp⟩ hdrv
  refine ⟨fun hreset => ?softReset, fun hreset hready => ?ready⟩
  case softReset => exact runMain_fails hidle (Fails.opInit_softReset hq hp hdrv hreset)
  case ready => exact runMain_fails hidle (Fails.opInit_ready hq hp hdrv hreset hready)

/-! ## The refusals of `send` (60 R197, 41 R125) -/

theorem lengthOk_eq_false_iff (hdr len : Nat) : lengthOk hdr len = false ↔ 116 < len ∨ 127 < hdr + len := by
  rw [← Bool.not_eq_true, lengthOk_iff, not_and_or, Nat.not_le, Nat.not_le]

theorem Fails.opSend_badLength {s : State} (hready : s.drv = .ready) {fcf : Half} {h : HdrShape}
    (hf : hdrShape fcf = some h) {payload : List Byte} (hlen : lengthOk (hdrLen h) payload.length = false) :
    Fails (Machine.opSend fcf payload) s .badLength s := by
  refine Runs.bindFails (Runs.requireReady hready) (Runs.bindFails (Runs.view fun _ => rfl) ?_)
  rw [hf]
  exact Fails.bind (Fails.require hlen)

theorem noDest_iff (r : RxRec) (dl : Nat) : noDest r dl = true ↔ dl ≠ 0 ∧ (r.valid = false ∨ r.srcLen ≠ dl) := by
  simp [noDest]

theorem setIrqMask_of_eq {s : State} {b : Bool} (h : s.irqMask = b) : s.setIrqMask b = s := by subst h; rfl

theorem exec_send_fails {s t : State} {fcf : Half} {payload : List Byte} {e : Code} (hidle : s.mainCtl = .idle)
    (h : Fails (Machine.opSend fcf payload) s e t) : exec (.send fcf payload) s = .next (t.finish e .none) :=
  runMain_fails hidle (Fails.bind h)

/-- Settles O28: each test stops the `send` before its first transaction; the last one is made under the mask, which is
taken off again. -/
theorem sendRefused : Obligations.SendRefused := by
  intro s fcf payload ⟨⟨hq, hidle, _⟩, hready⟩
  refine ⟨fun hmode => ?badAddrMode, fun h hf => ⟨fun hlong => ?badLength, fun h116 h127 hdl hrec hmask => ?noDest⟩⟩
  case badAddrMode =>
    exact exec_send_fails hidle (Fails.opSend_badAddrMode hready ((hdrShape_eq_none fcf).2 hmode) payload)
  case badLength =>
    exact exec_send_fails hidle (Fails.opSend_badLength hready hf ((lengthOk_eq_false_iff _ _).2 hlong))
  case noDest =>
    have hfails := Fails.opSend_noDest hq hready hf ((lengthOk_iff _ _).2 ⟨h116, h127⟩) ((noDest_iff _ _).2 ⟨hdl, hrec⟩)
    rw [setIrqMask_of_eq hmask] at hfails
    exact exec_send_fails hidle hfails

/-! ## The reach of the interrupt context (60 R202, R205) -/

/-- Settles O49: the frame of a run (`execIrq_frame`) and of a path on its own (`runIrqPath_frame`). -/
theorem interruptWritesOnly : Obligations.InterruptWritesOnly := by
  intro i s t hi h
  obtain ⟨hframe, -⟩ := exec_irqRow_frame hi h
  exact hframe

/-! ## A command that is none (60 R197) -/

theorem mainTurn_badCommand {s : State} {bytes : List Byte} {rest : List (List Byte)} {e : DecodeError}
    (hidle : s.mainCtl = .idle) (hq : s.hostq = bytes :: rest) (he : decodeHost bytes = .error e) :
    mainTurn s = .next (badCommand (s.setHostq rest)) := by
  simp [mainTurn, hidle, hq, takeCommand, he]

/-- Settles O60: the step is the main context's turn, and its turn takes the command off the queue and refuses it. -/
theorem badCommandRefused : Obligations.BadCommandRefused := by
  intro s bytes rest e hquiet hidle hirq hq he
  calc step s = idleTurn s := step_irqIdle hirq
    _ = mainTurn s := idleTurn_quiet hquiet
    _ = .next (badCommand (s.setHostq rest)) := mainTurn_badCommand hidle hq he

end Sys2Proof.Machine
